-- ==== Sys2Proof/Word.lean ====
section
/-! DEFINITION. Words of the CN-416: bytes, 16-bit fields, and a table of a fixed number of like things. -/

namespace Sys2Proof

/-- A byte on the hall link, the front-end line or the configuration memory (R183). -/
abbrev Byte := BitVec 8

/-- A 16-bit field: arbitration word, check value, resource set, sticky flags (R183, R184, R187). -/
abbrev Word16 := BitVec 16

/-- A resource number, 0 to 15 (R1). -/
abbrev Res := Fin 16

end Sys2Proof
end

