-- ==== Sys2Proof/Syntax.lean ====
section
/-! DEFINITION. The commands of the CN-416: one constructor of `Instr` for each row of spec/opcode_table.json, with the operands of the row. -/

namespace Sys2Proof

/-- A discrete input line (R125, R127). -/
inductive Input where
  | req (line : Fin 4)
  | confirm
  | stop
  | prod (line : Fin 4)
  | reset
deriving DecidableEq, Repr

/-- The three acknowledge slots of a frame (R133), each driven or not. -/
structure AckSlots where
  accept : Bool
  reject : Bool
  hold : Bool
deriving DecidableEq, Repr

/-- A frame that another station sent, as this node receives it whole (R133, R186): the low field of its
arbitration word, its payload and its check field, the acknowledge slots that the OTHER receivers drive, and
whether this node made its own answer before hold-off last began or ended (R9). -/
structure RxFrame where
  low : BitVec 12
  payload : List Byte
  check : Word16
  others : AckSlots
  early : Bool
deriving DecidableEq, Repr

/-- A received COMMAND frame of one of the four codes (R186); the code itself is the row's. -/
structure CommandFrame where
  sender : BitVec 12
  target : Byte
  slot : Byte
  endIndex : Byte
  extra : List Byte
  check : Word16
  others : AckSlots
  early : Bool
deriving DecidableEq, Repr

/-- One command for each row of the table. -/
inductive Instr where
  | powerUp
  | resetRisingEdge
  | resetFallingEdge
  | imageReadEnd (bytes : List Byte)
  | startUpComplete
  | uptimeTick
  | inputLevelChange (input : Input) (active : Bool)
  | reqRisingEdge (line : Fin 4)
  | confirmRisingEdge
  | stopChange
  | prodLineChange (line : Fin 4)
  | samplePeriodExpiry
  | sampleReply (bytes : List Byte)
  | replyTimeout
  | applyAnnouncementCip
  | applyAnnouncementProduct
  | applyRelease
  | inhibitOperation
  | clearOperation
  | ownInsert
  | ownUpdate
  | ownRemove
  | evaluate
  | entryExpiry (entry : Fin 64)
  | incompleteTimerExpiry (resource : Res)
  | agingExpiry
  | learningExpiry
  | settleExpiry
  | lapseExpiry
  | refreshExpiry
  | guardExpiry
  | productRefreshExpiry (line : Fin 4)
  | stepTimerExpiry
  | pauseTimerExpiry
  | suspendTimerExpiry
  | announce (frame : RxFrame)
  | release (frame : RxFrame)
  | inhibit (frame : RxFrame)
  | clear (frame : RxFrame)
  | request (frame : CommandFrame)
  | abort (frame : CommandFrame)
  | resume (frame : CommandFrame)
  | report (frame : CommandFrame)
  | status (frame : RxFrame)
  | record (frame : RxFrame)
  | unknownKind (kind : Fin 9) (frame : RxFrame)
  | receivedFrameCheckFailed
  | frameBreakOff
  | arbitrationLost
  | frameAbandon
  | ownFrameEnd (seen : AckSlots)
  | mediumIdle
  | holdBackExpiry
  | rejoin
  | statusPeriodExpiry
  | commandNotAddressed (frame : RxFrame)
  | peerStartField
deriving DecidableEq, Repr

end Sys2Proof
end

