-- ==== Sys2Proof/Config.lean ====
section
/-! DEFINITION. Constants that the manual fixes for every CN-416. Times are in milliseconds. No value of the manual is left free, so there is no free value here. -/

namespace Sys2Proof.Config

/-- Entries reserved for own use (R5). -/
def reservedEntries : Nat := 7
/-- Queue count at which hold-off begins (R9). -/
def holdOffOn : Nat := 12
/-- Queue count at which hold-off ends (R9). -/
def holdOffOff : Nat := 8
/-- Units of 50 ms added to the life of a CLAIMING peer entry (R6). -/
def claimLifeBonus : Nat := 20
/-- The incomplete timer's limit (R20). -/
def incompleteLimit : Nat := 8000
/-- The learning time (R31). -/
def learningTime : Nat := 8000
/-- Own operations outstanding at most (R33). -/
def outstandingMax : Nat := 2
/-- Stability time of a discrete input (R125, R127). -/
def stabilityTime : Nat := 50
/-- The reply timer's limit (R122). -/
def replyLimit : Nat := 100
/-- The rejoin quiet time (R146). -/
def rejoinQuiet : Nat := 5000
/-- The hold-back after a HELD outcome (R161). -/
def holdBack : Nat := 10
/-- Credit of one in-band sample at the minimum temperature (R99). -/
def baseWeight : Nat := 16
/-- The largest weight (R103). -/
def weightCap : Nat := 32
/-- Numerator units of one litre (R112). -/
def unitsPerLitre : Nat := 36000
/-- A numerator stays below this (R112). -/
def numeratorLimit : Nat := 2 ^ 40
/-- Longest recorded wait and run time, in seconds (R115). -/
def attemptTimeMax : Nat := 65535
/-- Records the queue holds (R167). -/
def recordQueueMax : Nat := 6
/-- Results one record holds (R165). -/
def resultsMax : Nat := 32
/-- The image mark (R190). -/
def imageMark : Nat := 0x3E91
/-- The image length (R190). -/
def imageLength : Nat := 2639

end Sys2Proof.Config
end

