-- ==== Sys2Proof/Machine/State.lean ====
section
/-! DEFINITION. The state of the CN-416 as plain data: one structure for each block of the manual, the queue of waiting commands, and the state after reset. -/

namespace Sys2Proof.Machine

/-- The manual describes no condition that stops the part: no meaning raises a fault. -/
inductive Fault where
deriving DecidableEq, Repr

/-- Why a command has no meaning. `notModelled`: raised by an arm of `exec` that has no meaning yet; safe, the machine stops. -/
inductive Refusal where
  | notModelled (mnemonic : String)
deriving DecidableEq, Repr

/-- A timer: whether it runs, and its milliseconds (elapsed, or left where the manual counts down). -/
structure Timer where
  on : Bool
  ms : Nat
deriving DecidableEq, Repr

/-- A timer stopped at 0. -/
def Timer.stopped : Timer := ⟨false, 0⟩

/-- A timer started from a value. -/
def Timer.from (ms : Nat) : Timer := ⟨true, ms⟩

/-! ### Configuration (R175 to R179, R55 to R62) -/

/-- Phase of the configuration loader (R175). -/
inductive Phase where
  | held | reading | validating | running | configFault
deriving DecidableEq, Repr

/-- Result of the last image check (R175, R177). -/
inductive CheckResult where
  | none | good | mismatch | readFailure
deriving DecidableEq, Repr

/-- The configuration loader (R175, R176, R182). -/
structure Loader where
  phase : Phase
  check : CheckResult
  image : List Byte
  uptime : Nat
  uptimeMs : Nat
deriving DecidableEq, Repr

/-- What gives way when the record queue is full (R167, R168, R178). -/
inductive Policy where
  | dropOldest | holdRounds
deriving DecidableEq, Repr

/-- The node-wide settings after clamping (R178). -/
structure Settings where
  node : Nat
  groups : Byte
  rateCode : Nat
  refresh : Nat
  settle : Nat
  aging : Nat
  sampleCode : Nat
  sensorLimit : Nat
  suspendLimit : Nat
  statusPeriod : Nat
  wBCode : Nat
  wCCode : Nat
  policy : Policy
  capacity : Vector Nat 16
  prodMap : Vector (Option Res) 4
  rest : BitVec 12
  divertLine : Option (Fin 12)
deriving DecidableEq, Repr

/-- The settings before an image is accepted: empty (R175), written as zeros. DESIGN CHOICE [19]; unsafe, but no rule reads them. -/
def Settings.empty : Settings :=
  { node := 0, groups := 0, rateCode := 0, refresh := 0, settle := 0, aging := 0, sampleCode := 0,
    sensorLimit := 0, suspendLimit := 0, statusPeriod := 0, wBCode := 0, wCCode := 0,
    policy := .dropOldest, capacity := Vector.replicate 16 0, prodMap := Vector.replicate 4 none,
    rest := 0, divertLine := none }

/-- A conversion set (R61). -/
structure ConvSet where
  alpha : Nat
  slope : Nat
  recover : Nat
  drain : Nat
  usable : Bool
deriving DecidableEq, Repr

/-- A step's reference to a conversion set (R57, R191): none, a set, or a byte with no meaning. -/
inductive SetRef where
  | none
  | set (n : Fin 4)
  | bad (byte : Nat)
deriving DecidableEq, Repr

/-- Return routing (R59, R191). -/
inductive Routing where
  | drain | recover | divert
  | bad (byte : Nat)
deriving DecidableEq, Repr

/-- A claim as the image holds it (R58, R190). -/
structure Claim where
  resource : Nat
  demand : Nat
deriving DecidableEq, Repr

/-- A step record (R57, R60). -/
structure Step where
  claimCount : Nat
  claims : List Claim
  active : BitVec 12
  pause : BitVec 12
  convSet : SetRef
  tmin : Nat
  span : Nat
  cmin : Nat
  cmax : Nat
  fmin : Nat
  contact : Nat
  grace : Nat
  limit : Nat
  repeats : Nat
  pauseTime : Nat
  routing : Routing
  last : Bool
  mark : Bool
  hold : Bool
  chain : Bool
  timed : Bool
deriving DecidableEq, Repr

/-- The step record of an empty store (R55), and of an index that the step count leaves unread (R56): zeros, no claims, set none,
routing DRAIN, no flags. DESIGN CHOICE [31]; no rule reads them. -/
def Step.empty : Step :=
  { claimCount := 0, claims := [], active := 0, pause := 0, convSet := .none, tmin := 0, span := 0,
    cmin := 0, cmax := 0, fmin := 0, contact := 0, grace := 0, limit := 0, repeats := 0, pauseTime := 0,
    routing := .drain, last := false, mark := false, hold := false, chain := false, timed := false }

/-- A recipe slot: header, step records, and the outcome of validation (R55, R56, R62). -/
structure Recipe where
  stepCount : Nat
  baseUrgency : Nat
  steps : Vector Step 20
  usable : Bool
  finalIndex : Fin 20
deriving DecidableEq, Repr

/-- The recipe store (R55). -/
structure Store where
  sets : Vector ConvSet 4
  slots : Vector Recipe 4
deriving DecidableEq, Repr

/-- The empty store, every set and slot unusable (R55). Their fields are written as zeros, step records as `Step.empty`, and final
index 0. DESIGN CHOICE [31]; no rule reads them. -/
def Store.empty : Store :=
  { sets := Vector.replicate 4 ⟨0, 0, 0, 0, false⟩,
    slots := Vector.replicate 4 ⟨0, 0, Vector.replicate 20 Step.empty, false, 0⟩ }

/-! ### The lane board (R1 to R25) -/

/-- Role of an entry (R2). -/
inductive Role where
  | cip | product
deriving DecidableEq, Repr

/-- State of an entry (R2). -/
inductive EntryState where
  | waiting | claiming | running | held
deriving DecidableEq, Repr

/-- Remaining life of a peer entry, in 50 ms units, and the milliseconds gone in the present unit (R6). -/
structure Life where
  units : Nat
  ms : Nat
deriving DecidableEq, Repr

/-- An entry of the pool in use (R2). Its resource is the list it lies on; its previous and next are its neighbours there. -/
structure Entry where
  num : Fin 64
  owner : Nat
  role : Role
  demand : Option Nat
  key : Nat
  state : EntryState
  life : Option Life
  own : Bool
deriving DecidableEq, Repr

/-- Lists, free list and per-resource flags (R1, R3, R16, R20). -/
structure Board where
  lists : Vector (List Entry) 16
  free : List (Fin 64)
  inhibit : Vector Bool 16
  incomplete : Vector Bool 16
  incompleteMs : Vector Nat 16
deriving DecidableEq, Repr

/-- The free list of a board with no entry in use: entry-number order (R3). -/
def Board.allFree : List (Fin 64) := List.finRange 64

/-- The board at start-up completion (R23). -/
def Board.start : Board :=
  { lists := Vector.replicate 16 [], free := Board.allFree, inhibit := Vector.replicate 16 false,
    incomplete := Vector.replicate 16 false, incompleteMs := Vector.replicate 16 0 }

/-- A resource and the demand on it, in an own operation or announcement. -/
structure Pair where
  res : Res
  demand : Nat
deriving DecidableEq, Repr

/-- The content of a delivered ANNOUNCE (R150): a state of `held` is role PRODUCT, the others role CIP. Pairs are as carried. -/
structure Announcement where
  owner : Nat
  key : Nat
  state : EntryState
  life : Nat
  pairs : List Claim
deriving DecidableEq, Repr

/-- An operation of the update queue (R8). -/
inductive Op where
  | announce (a : Announcement)
  | release (owner : Nat) (role : Role) (set : Word16)
  | inhibit (set : Word16)
  | clear (set : Word16)
  | ownInsert (role : Role) (pairs : List Pair) (key : Nat) (state : EntryState)
  | ownUpdate (role : Role) (pairs : List Pair) (key : Nat) (state : EntryState)
  | ownRemove (role : Role) (resources : List Res)
  | evaluate
deriving DecidableEq, Repr

/-- The update queue and the hold-off condition (R8, R9). -/
structure Updates where
  ops : List Op
  holdOff : Bool
deriving DecidableEq, Repr

/-! ### The admission unit (R26 to R54) -/

/-- Admission state of the node (R31). -/
inductive AdmState where
  | learning | active
deriving DecidableEq, Repr

/-- Own step state (section 2.5). -/
inductive OwnState where
  | none | waiting | claiming | runPending | running
deriving DecidableEq, Repr

/-- State announced by an own-step ANNOUNCE (R149, R150). -/
inductive AnnState where
  | wait | claim | run
deriving DecidableEq, Repr

/-- Content of the own step slot, and of the last-delivered record (section 2.5, R155). -/
inductive OwnFrame where
  | announce (state : AnnState) (key life : Nat) (pairs : List Pair)
  | release (resources : List Res)
deriving DecidableEq, Repr

/-- Content of a product slot (R53, R54, R155). -/
inductive ProdFrame where
  | announce (life : Nat) (res : Res)
  | release (res : Res)
deriving DecidableEq, Repr

/-- A standing admission request: the step's pairs and the attempt tag (R34, R75). -/
structure Standing where
  pairs : List Pair
  tag : Nat
deriving DecidableEq, Repr

/-- The evaluation outstanding or waiting: the stay it was requested in, and whether it is the settle evaluation (R33, R40). -/
structure EvalReq where
  stay : Nat
  settle : Bool
deriving DecidableEq, Repr

/-- A product hold: HOLDING or QUIET, and its refresh timer (R52, R53). -/
structure Hold where
  holding : Bool
  refresh : Timer
deriving DecidableEq, Repr

/-- The admission unit. -/
structure Admission where
  state : AdmState
  learning : Timer
  own : OwnState
  standing : Option Standing
  framePlaced : Bool
  urgency : Nat
  aging : Nat
  settle : Timer
  lapse : Timer
  refresh : Timer
  guard : Timer
  last : Option OwnFrame
  stay : Nat
  outstanding : Nat
  waiting : List Op
  evalReq : Option EvalReq
  wanted : Bool
  wantedSettle : Bool
  granting : Bool
  holds : Vector Hold 4
deriving DecidableEq, Repr

/-- The admission unit before start-up completes (R51), and with `learning` started at start-up completion. -/
def Admission.start : Admission :=
  { state := .learning, learning := .stopped, own := .none, standing := none, framePlaced := false,
    urgency := 0, aging := 0, settle := .stopped, lapse := .stopped, refresh := .stopped,
    guard := .stopped, last := none, stay := 0, outstanding := 0, waiting := [], evalReq := none,
    wanted := false, wantedSettle := false, granting := false,
    holds := Vector.replicate 4 ⟨false, .stopped⟩ }

/-! ### The round sequencer (R69) -/

/-- Round state (section 4.3). -/
inductive RoundState where
  | idle | holdWait | waiting | claiming | running | suspended | closing
deriving DecidableEq, Repr

/-- Part of a running step (R69). -/
inductive RunPhase where
  | burst | pause
deriving DecidableEq, Repr

/-- Cause of a suspension (R69, R88). -/
inductive Cause where
  | sensorLost | stepTime | linkLost | leaseLost | routeTaken
deriving DecidableEq, Repr

/-- The round sequencer. -/
structure Sequencer where
  state : RoundState
  phase : RunPhase
  pendingSet : Vector (Option Nat) 4
  roundNumber : Nat
  slot : Fin 4
  endIndex : Nat
  pointer : Fin 20
  tag : Nat
  attemptOpen : Bool
  repeats : Nat
  stepTimer : Timer
  pauseTimer : Timer
  suspendTimer : Timer
  suspendCount : Nat
  lastCause : Option Cause
  startUptime : Nat
deriving DecidableEq, Repr

/-- The round sequencer after start-up (R69). -/
def Sequencer.start : Sequencer :=
  { state := .idle, phase := .burst, pendingSet := Vector.replicate 4 none, roundNumber := 0, slot := 0,
    endIndex := 255, pointer := 0, tag := 0, attemptOpen := false, repeats := 1, stepTimer := .stopped,
    pauseTimer := .stopped, suspendTimer := .stopped, suspendCount := 0, lastCause := none,
    startUptime := 0 }

/-! ### The contact verifier (R96) -/

/-- Mode of the verifier (section 5.2). -/
inductive Mode where
  | off | standby | burst | burstDone | pause | halted
deriving DecidableEq, Repr

/-- Divert state (R110). -/
inductive Divert where
  | drain | recover
deriving DecidableEq, Repr

/-- A sample: each channel present with its clamped value, or absent (R97, R123). -/
structure Sample where
  tr : Option Nat
  fs : Option Nat
  fr : Option Nat
  kappa : Option Nat
deriving DecidableEq, Repr

/-- The sample most recently taken, with the values computed from it (R96, R100, R101). -/
structure Taken where
  sample : Sample
  kappa25 : Option Nat
  conc : Option Nat
deriving DecidableEq, Repr

/-- The contact verifier. -/
structure Verifier where
  mode : Mode
  required : Nat
  credit : Nat
  dropout : Nat
  sensorLoss : Nat
  divert : Divert
  returned : Nat
  recovered : Nat
  drained : Nat
  waitMs : Nat
  runMs : Nat
  minTr : Option Nat
  maxTr : Option Nat
  peak : Option Nat
  reps : Nat
  restarts : Nat
  current : Option Taken
deriving DecidableEq, Repr

/-- The verifier after start-up (R96). -/
def Verifier.start : Verifier :=
  { mode := .off, required := 0, credit := 0, dropout := 0, sensorLoss := 0, divert := .drain,
    returned := 0, recovered := 0, drained := 0, waitMs := 0, runMs := 0, minTr := none, maxTr := none,
    peak := none, reps := 0, restarts := 0, current := none }

/-! ### The field port (R119) -/

/-- Exchange state (R119). -/
inductive Exchange where
  | idle | awaiting
deriving DecidableEq, Repr

/-- An input: its level, its debounced state and its stability timer (R125). The timer runs while the two differ. -/
structure Line where
  level : Bool
  debounced : Bool
  timer : Timer
deriving DecidableEq, Repr

/-- The four indicators (R130). -/
structure Indicators where
  round : Bool
  operator : Bool
  fault : Bool
  link : Bool
deriving DecidableEq, Repr

/-- The field port. -/
structure Port where
  exchange : Exchange
  samplePeriod : Timer
  requestNumber : Nat
  request : Option (Byte × Byte)
  replyTimer : Timer
  absent : Nat
  silent : Bool
  req : Vector Line 4
  confirm : Line
  stop : Line
  prod : Vector Line 4
  reset : Line
  outputs : BitVec 12
  indicators : Indicators
deriving DecidableEq, Repr

/-- A line that reads inactive and is debounced inactive. -/
def Line.quiet : Line := ⟨false, false, .stopped⟩

/-- The field port as power-up leaves it: the pins read inactive (R131), RESET debounced active (R127). DESIGN CHOICE [1]. -/
def Port.start : Port :=
  { exchange := .idle, samplePeriod := .stopped, requestNumber := 255, request := none,
    replyTimer := .stopped, absent := 0, silent := false, req := Vector.replicate 4 Line.quiet,
    confirm := .quiet, stop := .quiet, prod := Vector.replicate 4 Line.quiet,
    reset := ⟨false, true, .from 0⟩, outputs := 0, indicators := ⟨false, false, false, false⟩ }

/-! ### The hall link controller (R132) -/

/-- Link state (R132). -/
inductive LinkState where
  | engaged | reticent | detached | barred
deriving DecidableEq, Repr

/-- Medium condition (R134). -/
inductive Medium where
  | idle | busy
deriving DecidableEq, Repr

/-- The node's part in the frame on the medium (R132). -/
inductive LinkRole where
  | none | sender | receiver
deriving DecidableEq, Repr

/-- An acknowledge answer (R138). -/
inductive Answer where
  | accept | reject | hold
deriving DecidableEq, Repr

/-- The fields of a frame that its sender drives, the start and end cells apart (R132, R133, R186). -/
structure OwnCopy where
  word : Word16
  length : BitVec 4
  payload : List Byte
  check : Word16
deriving DecidableEq, Repr

/-- The hall link controller. -/
structure Link where
  state : LinkState
  tec : Nat
  recCount : Nat
  medium : Medium
  copy : Option OwnCopy
  role : LinkRole
  quiet : Timer
  answer : Option Answer
  holdOffMoved : Bool
deriving DecidableEq, Repr

/-- The link controller after start-up (R132). -/
def Link.start : Link :=
  { state := .engaged, tec := 0, recCount := 0, medium := .busy, copy := none, role := .none,
    quiet := .stopped, answer := none, holdOffMoved := false }

/-! ### The transmit selector (R155) -/

/-- A place that a frame is offered from (R155). -/
inductive SlotId where
  | own
  | product (line : Fin 4)
  | status
  | stream
deriving DecidableEq, Repr

/-- Which of classes B and C the round robin serves (R155). -/
inductive Turn where
  | b | c
deriving DecidableEq, Repr

/-- The replacement marks (R155, R156). -/
structure Marks where
  own : Bool
  product : Vector Bool 4
  status : Bool
  stream : Bool
deriving DecidableEq, Repr

/-- All marks clear. -/
def Marks.clear : Marks := ⟨false, Vector.replicate 4 false, false, false⟩

/-- The transmit selector. `statusSuspend` is the time, in ms, that the suspend timer had run when the STATUS in the slot was made:
R89 has it appear in STATUS, and R187 gives none of the 12 bytes to it, so it stands beside them. DESIGN CHOICE [37]. -/
structure Selector where
  own : Option OwnFrame
  product : Vector (Option ProdFrame) 4
  status : Option (List Byte)
  statusSuspend : Option Nat
  marks : Marks
  turn : Turn
  turnCount : Nat
  holdBack : Timer
  copyFrom : Option SlotId
deriving DecidableEq, Repr

/-- The selector after start-up (R155). -/
def Selector.start : Selector :=
  { own := none, product := Vector.replicate 4 none, status := none, statusSuspend := none, marks := .clear,
    turn := .b, turnCount := 0, holdBack := .stopped, copyFrom := none }

/-! ### The record unit (R163) -/

/-- How a round ended (R164). -/
inductive RoundOutcome where
  | complete | aborted | stopped | abandoned
deriving DecidableEq, Repr

/-- How an attempt ended (R165). -/
inductive AttemptOutcome where
  | done | shed | cut | failedSensor | failedTime | failedLink | failedLease | failedRoute
deriving DecidableEq, Repr

/-- A step result (R165). -/
structure StepResult where
  step : Fin 20
  outcome : AttemptOutcome
  reps : Nat
  restarts : Nat
  waitSeconds : Nat
  runSeconds : Nat
  minTr : Option Nat
  maxTr : Option Nat
  peak : Option Nat
deriving DecidableEq, Repr

/-- A round record: the header of R164 and the results in order. -/
structure Record where
  roundNumber : Nat
  slot : Fin 4
  endIndex : Nat
  outcome : RoundOutcome
  lastCause : Option Cause
  suspendCount : Nat
  truncated : Bool
  startUptime : Nat
  endUptime : Nat
  recovered : Nat
  drained : Nat
  results : List StepResult
deriving DecidableEq, Repr

/-- The record under composition, and whether it is complete and waits for room (R163, R168). -/
structure Composition where
  record : Record
  complete : Bool
deriving DecidableEq, Repr

/-- The sixteen sticky flags (section 9.7). -/
inductive Sticky where
  | requestRefused | stepMark | shed | peerLapsed | viewIncomplete | recordDropped | sensorAbsent
  | overcommit | holdoffAsserted | inhibitChanged | chainIgnored | clamped | recipeUnusable
  | frontendSilent | claimLapsed | reticentEntered
deriving DecidableEq, Repr

/-- The record unit. -/
structure Log where
  comp : Option Composition
  queue : List Record
  nextFragment : Nat
  dropped : Nat
  flags : Word16
  renewal : Word16
  carried : Word16
  period : Timer
deriving DecidableEq, Repr

/-- The record unit before start-up completes (R163). -/
def Log.start : Log :=
  { comp := none, queue := [], nextFragment := 0, dropped := 0, flags := 0, renewal := 0, carried := 0,
    period := .stopped }

/-! ### The whole node -/

/-- The state of the node. -/
structure State where
  loader : Loader
  settings : Settings
  store : Store
  board : Board
  updates : Updates
  adm : Admission
  seq : Sequencer
  ver : Verifier
  port : Port
  link : Link
  tx : Selector
  log : Log
  pending : List Instr
deriving DecidableEq, Repr

/-- The loader in HELD (R175). -/
def Loader.start : Loader :=
  { phase := .held, check := .none, image := [], uptime := 0, uptimeMs := 0 }

/-- The node right after power-up, held in reset (R127, R175): RUNNING is reached by RESET_FALLING_EDGE, IMAGE_READ_END
and START_UP_COMPLETE. Items to which the manual gives only a start-up value hold it. DESIGN CHOICE [21]; unsafe. -/
def State.reset : State :=
  { loader := .start, settings := .empty, store := .empty, board := .start, updates := ⟨[], false⟩,
    adm := .start, seq := .start, ver := .start, port := .start, link := .start, tx := .start,
    log := .start, pending := [] }

/-! Updates of one block, leaving the others as they are. -/

/-- Change the loader. -/
def State.onLoader (s : State) (f : Loader → Loader) : State := { s with loader := f s.loader }
/-- Replace the settings. -/
def State.onSettings (s : State) (f : Settings → Settings) : State := { s with settings := f s.settings }
/-- Replace the recipe store. -/
def State.onStore (s : State) (f : Store → Store) : State := { s with store := f s.store }
/-- Change the lists and flags of the lane board. -/
def State.onBoard (s : State) (f : Board → Board) : State := { s with board := f s.board }
/-- Change the update queue. -/
def State.onUpdates (s : State) (f : Updates → Updates) : State := { s with updates := f s.updates }
/-- Change the admission unit. -/
def State.onAdm (s : State) (f : Admission → Admission) : State := { s with adm := f s.adm }
/-- Change the round sequencer. -/
def State.onSeq (s : State) (f : Sequencer → Sequencer) : State := { s with seq := f s.seq }
/-- Change the contact verifier. -/
def State.onVer (s : State) (f : Verifier → Verifier) : State := { s with ver := f s.ver }
/-- Change the field port. -/
def State.onPort (s : State) (f : Port → Port) : State := { s with port := f s.port }
/-- Change the link controller. -/
def State.onLink (s : State) (f : Link → Link) : State := { s with link := f s.link }
/-- Change the transmit selector. -/
def State.onTx (s : State) (f : Selector → Selector) : State := { s with tx := f s.tx }
/-- Change the record unit. -/
def State.onLog (s : State) (f : Log → Log) : State := { s with log := f s.log }

end Sys2Proof.Machine
end

