-- ==== Sys2Proof/Machine/Flags.lean ====
section
/-! DEFINITION. The sticky flags: the bit of each (R187), setting one (R173), and clearing at a STATUS delivery (R174). -/

namespace Sys2Proof.Machine

/-- The bit of a sticky flag in STATUS bytes 10 to 11 (R187). -/
def Sticky.index : Sticky → Nat
  | .requestRefused => 0
  | .stepMark => 1
  | .shed => 2
  | .peerLapsed => 3
  | .viewIncomplete => 4
  | .recordDropped => 5
  | .sensorAbsent => 6
  | .overcommit => 7
  | .holdoffAsserted => 8
  | .inhibitChanged => 9
  | .chainIgnored => 10
  | .clamped => 11
  | .recipeUnusable => 12
  | .frontendSilent => 13
  | .claimLapsed => 14
  | .reticentEntered => 15

/-- The word with the flag's bit alone set. -/
def Sticky.mask (f : Sticky) : Word16 := BitVec.twoPow 16 f.index

/-- Whether a flag stands set. -/
def Log.isSet (l : Log) (f : Sticky) : Bool := l.flags.getLsbD f.index

/-- A setting event sets the flag and its renewal mark (R173). -/
def Log.setFlag (l : Log) (f : Sticky) : Log :=
  { l with flags := l.flags ||| f.mask, renewal := l.renewal ||| f.mask }

/-- A setting event, as the whole node sees it (R173). -/
def State.sticky (s : State) (f : Sticky) : State := s.onLog fun l => l.setFlag f

/-- A setting event where a condition holds. -/
def State.stickyIf (s : State) (c : Bool) (f : Sticky) : State := if c then s.sticky f else s

/-- The current delivery of a STATUS clears each carried flag whose renewal mark is clear, and empties the carried set (R174). -/
def Log.statusDelivered (l : Log) : Log :=
  { l with flags := l.flags &&& ~~~(l.carried &&& ~~~l.renewal), carried := 0 }

end Sys2Proof.Machine
end

