-- ==== Sys2Proof/Machine/Operands.lean ====
section
/-! DEFINITION. Reading what crosses the node's edges: byte order (R183), the check computation (R184), frame payloads (R150 to R153, R185, R186) and the front-end reply (R121, R123, R189). -/

namespace Sys2Proof.Machine

/-- A table with one place changed. -/
def modAt {α : Type} {n : Nat} (v : Vector α n) (i : Fin n) (f : α → α) : Vector α n :=
  v.set i.val (f v[i]) i.isLt

/-- A table with every place changed. -/
def mapAll {α β : Type} {n : Nat} (v : Vector α n) (f : α → β) : Vector β n :=
  Vector.ofFn fun i => f v[i]

/-- The resources in ascending order. -/
def allRes : List Res := List.finRange 16

/-- The four lines, sets or slots in ascending order. -/
def allFour : List (Fin 4) := List.finRange 4

/-- The resource that a resource byte names: 0 to 15 (R185, R190, R191). -/
def resourceOf (n : Nat) : Option Res := if h : n < 16 then some ⟨n, h⟩ else none

/-- A byte of a string, and a given value past its end. -/
def byteAt (past : Nat) (bs : List Byte) (i : Nat) : Nat :=
  match bs[i]? with
  | some b => b.toNat
  | none => past

/-- A two-byte field, most significant byte first (R183). -/
def wordAt (past : Nat) (bs : List Byte) (i : Nat) : Nat :=
  byteAt past bs i * 256 + byteAt past bs (i + 1)

/-- The two bytes of a 16-bit number, most significant first (R183). -/
def bytes16 (n : Nat) : List Byte := [BitVec.ofNat 8 (n / 256), BitVec.ofNat 8 n]

/-- The four bytes of a 32-bit number, most significant first (R183). -/
def bytes32 (n : Nat) : List Byte := bytes16 (n / 65536) ++ bytes16 (n % 65536)

/-! ### The check computation (R184) -/

/-- One bit into the check register: shift toward the top, and combine with 0x1021 where the top bit and the incoming bit differ (R184). -/
def checkBit (reg : Word16) (bit : Bool) : Word16 :=
  if reg.msb == bit then reg <<< 1 else (reg <<< 1) ^^^ 0x1021#16

/-- The bits of a field, most significant first (R183). -/
def bitsMsbFirst {n : Nat} (w : BitVec n) : List Bool :=
  (List.range n).map fun i => w.getMsbD i

/-- One byte into the check register. -/
def checkByte (reg : Word16) (b : Byte) : Word16 := (bitsMsbFirst b).foldl checkBit reg

/-- The check value over whole bytes: a reply, or the configuration image (R184). -/
def checkBytes (bs : List Byte) : Word16 := bs.foldl checkByte 0xFFFF#16

/-- The check value of a frame: arbitration word, 4-bit length, payload (R184). -/
def frameCheck (word : Word16) (payload : List Byte) : Word16 :=
  payload.foldl checkByte
    ((bitsMsbFirst (BitVec.ofNat 4 payload.length)).foldl checkBit
      ((bitsMsbFirst word).foldl checkBit 0xFFFF#16))

/-! ### Frames (R149 to R153, R185, R186) -/

/-- The arbitration word of a kind and a low field (R149). -/
def arbWord (kind low : Nat) : Word16 := BitVec.ofNat 16 (kind * 4096 + low)

/-- The receiver's check of a frame is good: the length is 0 to 12 and the check field agrees (R137). -/
def checkGood (kind : Nat) (f : RxFrame) : Bool :=
  decide (f.payload.length ≤ 12) && f.check == frameCheck (arbWord kind f.low.toNat) f.payload

/-- The payload of a received COMMAND of one code (R186). -/
def commandRx (f : CommandFrame) (code : Byte) : RxFrame :=
  { low := f.sender, payload := [f.target, code, f.slot, f.endIndex] ++ f.extra, check := f.check,
    others := f.others, early := f.early }

/-- The sender number of a delivered frame of kinds 0 to 6; other kinds carry none (R147). -/
def senderNumber (kind : Nat) (f : RxFrame) : Option Nat :=
  if kind = 3 then some (f.low.toNat % 64)
  else if kind ≤ 6 then some f.low.toNat
  else none

/-- The state code of an ANNOUNCE (R186), as the entry state it announces (R11, R12). -/
def announcedState : Nat → Option EntryState
  | 0 => some .waiting
  | 1 => some .claiming
  | 2 => some .running
  | 3 => some .held
  | _ => none

/-- The content of an ANNOUNCE; none where it is malformed (R150). -/
def readAnnounce (f : RxFrame) : Option Announcement :=
  let p := f.payload
  let count := byteAt 0 p 2
  if 3 ≤ p.length ∧ count ≤ 3 ∧ 3 + 2 * count ≤ p.length then
    (announcedState (byteAt 0 p 0)).map fun st =>
      { owner := f.low.toNat % 64, key := f.low.toNat, state := st, life := byteAt 0 p 1,
        pairs := (List.range count).map fun k => ⟨byteAt 0 p (3 + 2 * k), byteAt 0 p (4 + 2 * k)⟩ }
  else none

/-- A resource set, bit n for resource n (R183). -/
def readSet (p : List Byte) (i : Nat) : Word16 := BitVec.ofNat 16 (wordAt 0 p i)

/-- The resources of a set, in ascending order (R183). -/
def setMembers (w : Word16) : List Res := allRes.filter fun r => w.getLsbD r.val

/-- The operation a RELEASE becomes; none where it is malformed (R151). -/
def readRelease (f : RxFrame) : Option Op :=
  let p := f.payload
  if 3 ≤ p.length then
    match byteAt 0 p 0 with
    | 0 => some (.release f.low.toNat .cip (readSet p 1))
    | 1 => some (.release f.low.toNat .product (readSet p 1))
    | _ => none
  else none

/-- The resource set of an INHIBIT or CLEAR; none where it is malformed (R152). -/
def readInhibitSet (f : RxFrame) : Option Word16 :=
  if 2 ≤ f.payload.length then some (readSet f.payload 0) else none

/-- Whether a COMMAND target addresses the node (R153). -/
def targetAddresses (node : Nat) (groups : Byte) (target : Nat) : Bool :=
  if target = 0 then false
  else if target ≤ 63 then target == node
  else if target ≤ 71 then groups.getLsbD (target - 64)
  else false

/-- A COMMAND is addressed to this node, by the target its payload holds (R153). -/
def commandAddressed (node : Nat) (groups : Byte) (f : RxFrame) : Bool :=
  decide (1 ≤ f.payload.length) && targetAddresses node groups (byteAt 0 f.payload 0)

/-- What a delivered COMMAND asks of this node (R153). -/
inductive Asked where
  | request (slot endIndex : Nat)
  | abort
  | resume
  | report
deriving DecidableEq, Repr

/-- The command a COMMAND passes on; none where it is passed on to nobody (R153, R185). -/
def readCommand (node : Nat) (groups : Byte) (f : RxFrame) : Option Asked :=
  let p := f.payload
  if 4 ≤ p.length ∧ commandAddressed node groups f = true then
    match byteAt 0 p 1 with
    | 0 => some (.request (byteAt 0 p 2) (byteAt 0 p 3))
    | 1 => some .abort
    | 2 => some .resume
    | 3 => some .report
    | _ => none
  else none

/-! ### The front-end reply (R121, R123, R189) -/

/-- The reply's check is good (R121, R189). -/
def replyCheckGood (bs : List Byte) : Bool :=
  bs.length == 12 && checkBytes (bs.take 10) == BitVec.ofNat 16 (wordAt 0 bs 10)

/-- A channel whose valid flag is set is present, clamped above; otherwise it is absent (R123). -/
def channel (valid : Bool) (value high : Nat) : Option Nat :=
  if valid then some (min value high) else none

/-- The signed return temperature of a reply, a value below 0 becoming 0 (R123, R189). -/
def replyTr (bs : List Byte) : Nat := (BitVec.ofNat 16 (wordAt 0 bs 1)).toInt.toNat

/-- The sample built from a valid reply (R123, R189). -/
def replySample (bs : List Byte) : Sample :=
  let flags : Byte := BitVec.ofNat 8 (byteAt 0 bs 9)
  { tr := channel (flags.getLsbD 0) (replyTr bs) 1500
    fs := channel (flags.getLsbD 1) (wordAt 0 bs 3) 1000
    fr := channel (flags.getLsbD 2) (wordAt 0 bs 5) 1000
    kappa := channel (flags.getLsbD 3) (wordAt 0 bs 7) 65535 }

/-- The sample of an exchange without a valid reply (R123). -/
def absentSample : Sample := ⟨none, none, none, none⟩

end Sys2Proof.Machine
end

