-- ==== Sys2Proof/Machine/Board.lean ====
section
/-! DEFINITION. The lane board's lists: order and lookup (R3, R4), taking and freeing entries (R3, R5), the list controller's operations (R10 to R21), and the tests on the board (R29, R30). -/

namespace Sys2Proof.Machine

/-! ### Lists (R3, R4, R5) -/

/-- Insert an entry after the last lower key and before the first higher one (R4). -/
def insertEntry (e : Entry) : List Entry → List Entry
  | [] => [e]
  | x :: xs => if x.key < e.key then x :: insertEntry e xs else e :: x :: xs

/-- The pool has peer room while more than 7 entries are free (R5). -/
def Board.peerRoom (b : Board) : Bool := decide (Config.reservedEntries < b.free.length)

/-- The owner's entry of a role on a resource, if there is one (R4). -/
def Board.find (b : Board) (r : Res) (owner : Nat) (role : Role) : Option Entry :=
  b.lists[r].find? fun e => decide (e.owner = owner ∧ e.role = role)

/-- The own entry of a role on a resource, if there is one (R17). -/
def Board.findOwn (b : Board) (r : Res) (role : Role) : Option Entry :=
  b.lists[r].find? fun e => decide (e.own = true ∧ e.role = role)

/-- Unlink from one list the entries that meet a condition; each joins the tail of the free list (R3). -/
def Board.unlink (b : Board) (r : Res) (p : Entry → Bool) : Board :=
  { b with
    lists := modAt b.lists r fun l => l.filter fun e => !p e
    free := b.free ++ (b.lists[r].filter p).map (·.num) }

/-- Take the head of the free list into use on a resource, at its key position (R3, R4). With no free entry nothing is taken, which R5 rules out. -/
def Board.takeFree (b : Board) (r : Res) (make : Fin 64 → Entry) : Board :=
  match b.free with
  | [] => b
  | n :: rest => { b with free := rest, lists := modAt b.lists r (insertEntry (make n)) }

/-- Give an entry of a list new content; it moves where its key changed (R4). -/
def Board.replace (b : Board) (r : Res) (old new : Entry) : Board :=
  { b with
    lists := modAt b.lists r fun l =>
      if old.key = new.key then l.map fun x => if x = old then new else x
      else insertEntry new (l.filter fun x => decide (x ≠ old)) }

/-- The incomplete timer of a resource, which runs while its flag is set and the pool has peer room, has reached 8 s (R20). -/
def Board.incompleteDue (b : Board) (r : Res) : Bool :=
  b.incomplete[r] && b.peerRoom && decide (Config.incompleteLimit ≤ b.incompleteMs[r])

/-- While the pool is at its peer limit every incomplete timer stands at 0 (R20). -/
def Board.holdTimers (b : Board) : Board :=
  if b.peerRoom then b else { b with incompleteMs := Vector.replicate 16 0 }

/-- The entry before another on a list: its Previous link (R2). -/
def previousOn (l : List Entry) (n : Fin 64) : Option (Fin 64) :=
  match l with
  | x :: y :: rest => if y.num = n then some x.num else previousOn (y :: rest) n
  | _ => none

/-- The entry after another on a list: its Next link (R2). -/
def nextOn (l : List Entry) (n : Fin 64) : Option (Fin 64) :=
  match l with
  | x :: y :: rest => if x.num = n then some y.num else nextOn (y :: rest) n
  | _ => none

/-- The resource on which a numbered entry stands, with the entry; none while it is free (R2). -/
def Board.whereIs (b : Board) (n : Fin 64) : Option (Res × Entry) :=
  allRes.findSome? fun r => (b.lists[r].find? fun e => decide (e.num = n)).map fun e => (r, e)

/-- An entry is due: its life has run down to 0 (R6). -/
def Entry.due (e : Entry) : Bool := decide (e.life.map (·.units) = some 0)

/-! ### Apply announcement (R6, R10 to R13) -/

/-- Role of an announced state (R150). -/
def Announcement.role (a : Announcement) : Role := if a.state = .held then .product else .cip

/-- The operation is discarded whole (R10). -/
def Announcement.discarded (node : Nat) (a : Announcement) : Bool :=
  decide (a.owner = 0 ∨ a.owner = node)
    || decide (a.state = .held ∧ 63 < a.key)
    || decide (a.state ≠ .held ∧ a.key < 65)
    || decide (a.life = 0)
    || decide (a.pairs = [])

/-- The resources of an operation's pairs, as carried (R7, R10). -/
def namedResources (pairs : List Claim) : List Res := pairs.filterMap fun c => resourceOf c.resource

/-- The pairs that are not skipped, in the order carried (R10): `seen` holds the resources of the earlier pairs. -/
def listedPairs (capacity : Vector Nat 16) (role : Role) : List Nat → List Claim → List Pair
  | _, [] => []
  | seen, c :: rest =>
    let more := listedPairs capacity role (c.resource :: seen) rest
    if h : c.resource < 16 then
      if capacity[c.resource] = 0 ∨ (role = .cip ∧ (c.demand = 0 ∨ 250 < c.demand)) ∨ c.resource ∈ seen then more
      else ⟨⟨c.resource, h⟩, c.demand⟩ :: more
    else more

/-- The life an announcement sets: 20 units more for a CLAIMING entry (R6). -/
def Announcement.lifeSet (a : Announcement) : Life :=
  ⟨if a.state = .claiming then a.life + Config.claimLifeBonus else a.life, 0⟩

/-- A board under an operation: the resources on which it inserted or changed an entry (R21) and those of its insertion failures (R13). -/
structure BoardWork where
  board : Board
  changed : List Res
  failed : List Res
deriving DecidableEq, Repr

/-- One listed pair of an apply-announcement operation (R11, R12): update, insert, or fail. -/
def applyPair (a : Announcement) (w : BoardWork) (p : Pair) : BoardWork :=
  let demand := if a.role = .cip then some p.demand else none
  match w.board.find p.res a.owner a.role with
  | some e =>
    let new := { e with state := a.state, demand := demand, key := a.key, life := some a.lifeSet }
    { w with
      board := w.board.replace p.res e new
      changed := if e.state = new.state ∧ e.demand = new.demand ∧ e.key = new.key then w.changed
        else w.changed ++ [p.res] }
  | none =>
    if w.board.peerRoom then
      { w with
        board := w.board.takeFree p.res fun n =>
          { num := n, owner := a.owner, role := a.role, demand := demand, key := a.key, state := a.state,
            life := some a.lifeSet, own := false }
        changed := w.changed ++ [p.res] }
    else { w with failed := w.failed ++ [p.res] }

/-- The owner's CIP entry stands on a resource that is not listed (R11). -/
def removalPass (owner : Nat) (listed : List Res) (b : Board) : Board × List Res :=
  allRes.foldl
    (fun (acc : Board × List Res) r =>
      if r ∉ listed ∧ (acc.1.find r owner .cip).isSome then
        (acc.1.unlink r fun e => decide (e.owner = owner ∧ e.role = .cip), acc.2 ++ [r])
      else acc)
    (b, [])

/-- An insertion failure sets the incomplete flag and its timer to 0 (R13). -/
def Board.markIncomplete (b : Board) (rs : List Res) : Board :=
  rs.foldl
    (fun b r => { b with incomplete := modAt b.incomplete r fun _ => true, incompleteMs := modAt b.incompleteMs r fun _ => 0 })
    b

/-! ### Load and tests (R21, R29, R30) -/

/-- The sum of the demands of the entries that meet a condition. -/
def demandSum (p : Entry → Bool) (l : List Entry) : Nat :=
  ((l.filter p).map fun e => e.demand.getD 0).sum

/-- Running and held demand on a list: RUNNING demands, and the capacity once for each HELD entry (R21). -/
def committed (capacity : Nat) (l : List Entry) : Nat :=
  demandSum (fun e => decide (e.state = .running)) l
    + capacity * (l.filter fun e => decide (e.state = .held)).length

/-- The overcommit check on the resources an operation changed (R21). -/
def overcommitted (capacity : Vector Nat 16) (b : Board) (rs : List Res) : Bool :=
  rs.any fun r => decide (capacity[r] < committed capacity[r] b.lists[r])

/-- The load on a list that the own step counts against itself: CIP entries that are not own and are RUNNING, or CLAIMING or
WAITING with a key lower than its own (R29). -/
def loadAgainst (key : Nat) (l : List Entry) : Nat :=
  demandSum
    (fun e => decide (e.own = false ∧ e.role = .cip
      ∧ (e.state = .running ∨ (e.state = .claiming ∨ e.state = .waiting) ∧ e.key < key))) l

/-- Outcome of an evaluation (R18). -/
inductive Fit where
  | pass | inhibited | incomplete | product | full | empty
deriving DecidableEq, Repr

/-- The reason for which one resource of the own step fails, if it does (R29). -/
def failsOn (capacity : Vector Nat 16) (b : Board) (r : Res) (own : Entry) : Option Fit :=
  if b.inhibit[r] then some .inhibited
  else if b.incomplete[r] then some .incomplete
  else if b.lists[r].any fun e => decide (e.state = .held) then some .product
  else if capacity[r] < loadAgainst own.key b.lists[r] + own.demand.getD 0 then some .full
  else none

/-- The own CIP entries on the board, by ascending resource (R18). -/
def Board.ownClaims (b : Board) : List (Res × Entry) :=
  allRes.filterMap fun r => (b.findOwn r .cip).map fun e => (r, e)

/-- The fit test: PASS, or the reason of the failing resource with the lowest number, or EMPTY (R18, R29). -/
def fitTest (capacity : Vector Nat 16) (b : Board) : Fit :=
  match b.ownClaims with
  | [] => .empty
  | own => ((own.findSome? fun x => failsOn capacity b x.1 x.2)).getD .pass

/-- Verdict on an own running step (R30). -/
inductive Verdict where
  | routeTaken | shed
deriving DecidableEq, Repr

/-- The route-taken and shed tests on one resource on which an own RUNNING entry stands (R30). -/
def verdictOn (capacity : Vector Nat 16) (b : Board) (r : Res) : Option Verdict :=
  match b.findOwn r .cip with
  | some e =>
    if e.state = .running then
      if b.lists[r].any fun x => decide (x.state = .held) then some .routeTaken
      else if capacity[r] < demandSum (fun x => decide (x.state = .running ∧ x.key ≤ e.key)) b.lists[r] then some .shed
      else none
    else none
  | none => none

/-- One verdict for the resources an operation touched: ROUTE_TAKEN before SHED (R30). -/
def verdictFor (capacity : Vector Nat 16) (b : Board) (touched : List Res) : Option Verdict :=
  if touched.any fun r => verdictOn capacity b r == some .routeTaken then some .routeTaken
  else if touched.any fun r => verdictOn capacity b r == some .shed then some .shed
  else none

/-! ### Own operations (R17) -/

/-- One pair of an own insert: an absent resource is skipped, an own entry there is updated, else one is placed (R17). -/
def ownInsertPair (capacity : Vector Nat 16) (node : Nat) (role : Role) (key : Nat) (st : EntryState)
    (w : BoardWork) (p : Pair) : BoardWork :=
  let demand := if role = .cip then some p.demand else none
  if capacity[p.res] = 0 then w
  else match w.board.findOwn p.res role with
    | some e =>
      let new := { e with state := st, demand := demand, key := key }
      { w with
        board := w.board.replace p.res e new
        changed := if e = new then w.changed else w.changed ++ [p.res] }
    | none =>
      { w with
        board := w.board.takeFree p.res fun n =>
          { num := n, owner := node, role := role, demand := demand, key := key, state := st, life := none, own := true }
        changed := w.changed ++ [p.res] }

/-- One pair of an own update: the named own entry takes its new values (R17). -/
def ownUpdatePair (role : Role) (key : Nat) (st : EntryState) (w : BoardWork) (p : Pair) : BoardWork :=
  match w.board.findOwn p.res role with
  | some e =>
    let new := { e with state := st, demand := if role = .cip then some p.demand else none, key := key }
    { w with
      board := w.board.replace p.res e new
      changed := if e = new then w.changed else w.changed ++ [p.res] }
  | none => w

/-- The own entries of a role leave the named resources (R17), freed in the order in which the operation names these: that of the
request's pairs. DESIGN CHOICE [12]. -/
def Board.ownRemove (b : Board) (role : Role) (rs : List Res) : Board :=
  rs.foldl (fun b r => b.unlink r fun e => decide (e.own = true ∧ e.role = role)) b

/-- An owner's entries of a role leave the named resources; an absent resource is skipped (R14). -/
def Board.releaseAll (capacity : Vector Nat 16) (b : Board) (owner : Nat) (role : Role) (rs : List Res) : Board :=
  rs.foldl
    (fun b r => if capacity[r] = 0 then b else b.unlink r fun e => decide (e.owner = owner ∧ e.role = role)) b

/-- Set or clear the inhibit flag of each named resource, absent ones included (R1, R16). -/
def Board.setInhibit (b : Board) (value : Bool) (rs : List Res) : Board :=
  rs.foldl (fun b r => { b with inhibit := modAt b.inhibit r fun _ => value }) b

/-- Clear all: every entry free in number order, incomplete flags and timers cleared, inhibit flags kept (R19). -/
def Board.clearAll (b : Board) : Board := { Board.start with inhibit := b.inhibit }

end Sys2Proof.Machine
end

