-- ==== Sys2Proof/Machine/Recipes.lean ====
section
/-! DEFINITION. The configuration image (R176, R190, R191), the clamping of the node-wide settings (R179) and the validation of conversion sets and recipes at load (R61 to R67). -/

namespace Sys2Proof.Machine

/-! ### Timings drawn from the settings (R26, R96, R120, R178) -/

/-- Settle window in ms (R26). -/
def Settings.settleMs (c : Settings) : Nat := c.settle * 100
/-- The lapse: twice the settle window (R26). -/
def Settings.lapseMs (c : Settings) : Nat := 2 * c.settleMs
/-- Life carried in a CLAIM: the lapse in 50 ms units (R26). -/
def Settings.lapseLife (c : Settings) : Nat := c.lapseMs / 50
/-- Refresh period in ms (R26). -/
def Settings.refreshMs (c : Settings) : Nat := c.refresh * 250
/-- Life carried in a WAIT, RUN or PRODUCT: three refresh periods in 50 ms units (R26). -/
def Settings.leaseLife (c : Settings) : Nat := 3 * c.refreshMs / 50
/-- Guard limit: twice the refresh period (R26). -/
def Settings.guardMs (c : Settings) : Nat := 2 * c.refreshMs
/-- Aging interval in ms (R28). -/
def Settings.agingMs (c : Settings) : Nat := c.aging * 1000
/-- Sample period in ms: 250, 500 or 1000 (R178). -/
def Settings.sampleMs (c : Settings) : Nat := 250 * 2 ^ c.sampleCode
/-- Suspend limit in ms (R91). -/
def Settings.suspendMs (c : Settings) : Nat := c.suspendLimit * 60000
/-- Status period in ms (R172). -/
def Settings.statusMs (c : Settings) : Nat := c.statusPeriod * 1000
/-- Round robin weight of STATUS (R178). -/
def Settings.wB (c : Settings) : Nat := 2 ^ c.wBCode
/-- Round robin weight of record fragments (R178). -/
def Settings.wC (c : Settings) : Nat := 2 ^ c.wCCode
/-- Capacity of a resource by number; a number above 15 is judged as capacity 0 (R191). -/
def Settings.capacityAt (c : Settings) (r : Nat) : Nat :=
  if h : r < 16 then c.capacity[r] else 0

/-! ### Reading the image (R176, R177, R190, R191) -/

/-- What the end of the image read finds: the check result and, where the image is accepted, nothing more to judge (R176, R177). -/
def judgeImage (bytes : List Byte) : CheckResult × Bool :=
  if wordAt 255 bytes 0 ≠ Config.imageMark ∨ wordAt 255 bytes 2 ≠ Config.imageLength then (.readFailure, false)
  else if checkBytes (bytes.take 2637) ≠ BitVec.ofNat 16 (wordAt 255 (bytes.drop 2637) 0) then (.mismatch, false)
  else (.good, decide (1 ≤ byteAt 255 bytes 4 ∧ byteAt 255 bytes 4 ≤ 63))

/-- The low 12 bits of a pattern field (R183, R191). -/
def patternAt (bs : List Byte) (i : Nat) : BitVec 12 := BitVec.ofNat 12 (wordAt 255 bs i)

/-- A byte that names an output line, or none (R179, R190). -/
def lineByte (n : Nat) : Option (Fin 12) := if h : n < 12 then some ⟨n, h⟩ else none

/-- Clamp to a range, and say whether the value changed (00_scope.md Conventions). -/
def clampTo (low high n : Nat) : Nat × Bool :=
  let m := max low (min n high)
  (m, m != n)

/-- The node-wide settings of an image, each brought into its range, and whether any changed (R179). -/
def readSettings (bs : List Byte) : Settings × Bool :=
  let b := byteAt 255 bs
  let rate := clampTo 0 2 (b 6)
  let refresh := clampTo 1 10 (b 7)
  let settle := clampTo 2 20 (b 8)
  let aging := clampTo 10 600 (wordAt 255 bs 9)
  let sample := clampTo 0 2 (b 11)
  let sensor := clampTo 2 20 (b 12)
  let suspend := clampTo 1 120 (b 13)
  let status := clampTo 1 60 (b 14)
  let wB := clampTo 0 3 (b 15)
  let wC := clampTo 0 3 (b 16)
  let policy := clampTo 0 1 (b 17)
  let caps : Vector (Nat × Bool) 16 := Vector.ofFn fun i => clampTo 0 250 (b (18 + i.val))
  let maps : Vector Nat 4 := Vector.ofFn fun i => b (34 + i.val)
  let line := b 40
  ({ node := b 4, groups := BitVec.ofNat 8 (b 5), rateCode := rate.1, refresh := refresh.1,
     settle := settle.1, aging := aging.1, sampleCode := sample.1, sensorLimit := sensor.1,
     suspendLimit := suspend.1, statusPeriod := status.1, wBCode := wB.1, wCCode := wC.1,
     policy := if policy.1 = 0 then .dropOldest else .holdRounds,
     capacity := Vector.ofFn fun i => (caps[i]).1, prodMap := Vector.ofFn fun i => resourceOf maps[i],
     rest := patternAt bs 38, divertLine := lineByte line },
   rate.2 || refresh.2 || settle.2 || aging.2 || sample.2 || sensor.2 || suspend.2 || status.2 || wB.2 || wC.2
     || policy.2 || allRes.any (fun i => (caps[i]).2)
     || allFour.any (fun i => decide (15 < maps[i] ∧ maps[i] ≠ 255))
     || decide (11 < line ∧ line ≠ 255))

/-- A conversion set byte (R190, R191). -/
def setRefByte (n : Nat) : SetRef :=
  if n = 255 then .none else if h : n < 4 then .set ⟨n, h⟩ else .bad n

/-- A return routing byte (R190, R191). -/
def routingByte : Nat → Routing
  | 0 => .drain
  | 1 => .recover
  | 2 => .divert
  | n => .bad n

/-- A step record of 32 bytes (R190); claims at or beyond the claim count are not read (R191). -/
def readStep (bs : List Byte) : Step :=
  let b := byteAt 255 bs
  let w := wordAt 255 bs
  let flags : Byte := BitVec.ofNat 8 (b 31)
  { claimCount := b 0
    claims := (List.range (min (b 0) 3)).map fun k => ⟨b (1 + 2 * k), b (2 + 2 * k)⟩
    active := patternAt bs 7, pause := patternAt bs 9, convSet := setRefByte (b 11)
    tmin := w 12, span := w 14, cmin := w 16, cmax := w 18, fmin := w 20, contact := w 22
    grace := b 24, limit := w 25, repeats := b 27, pauseTime := w 28, routing := routingByte (b 30)
    last := flags.getLsbD 0, mark := flags.getLsbD 1, hold := flags.getLsbD 2
    chain := flags.getLsbD 3, timed := flags.getLsbD 4 }

/-- A recipe slot of 642 bytes, not yet validated (R190): the step records at 0 to step count − 1 are read, those at higher
indices are not (R56). In the store an unread record is `Step.empty`, and the final index is 0 until R62 finds one, which it does
not for a step count of 0 or above 20. DESIGN CHOICE [31]. -/
def readRecipe (bs : List Byte) : Recipe :=
  let count := byteAt 255 bs 0
  { stepCount := count, baseUrgency := byteAt 255 bs 1
    steps := Vector.ofFn fun (i : Fin 20) =>
      if i.val < count then readStep ((bs.drop (2 + 32 * i.val)).take 32) else Step.empty
    usable := false, finalIndex := 0 }

/-! ### Validation (R61 to R67) -/

/-- A conversion set of 7 bytes, clamped and judged, and whether a value was clamped (R61). -/
def readConvSet (bs : List Byte) : ConvSet × Bool :=
  let a := clampTo 0 30 (byteAt 255 bs 0)
  let sl := clampTo 0 1000 (wordAt 255 bs 1)
  let re := clampTo 0 9999 (wordAt 255 bs 3)
  let dr := clampTo 0 9999 (wordAt 255 bs 5)
  (⟨a.1, sl.1, re.1, dr.1, decide (dr.1 ≤ re.1)⟩, a.2 || sl.2 || re.2 || dr.2)

/-- The time and repetition fields clamped in the order of R64. -/
def Step.clampTimes (st : Step) : Step :=
  let contact := (clampTo 1 7200 st.contact).1
  { st with
    contact := contact
    repeats := (clampTo 1 16 st.repeats).1
    pauseTime := min st.pauseTime 600
    limit := max (clampTo 10 14400 st.limit).1 contact }

/-- The measurement fields clamped as R65 gives: Cmin and Cmax where the step names a set, and not where it names none. A set byte of
4 to 254 is neither: its Cmin and Cmax are clamped as for a named set, and so set CLAMPED (R191). DESIGN CHOICE [33]. -/
def Step.clampMeasures (st : Step) : Step :=
  { st with
    tmin := min st.tmin 1500
    span := min st.span 500
    fmin := min st.fmin 1000
    cmin := if st.convSet = .none then st.cmin else min st.cmin 9999
    cmax := if st.convSet = .none then st.cmax else min st.cmax 9999 }

/-- A step in use after R64 and R65. -/
def Step.clamp (st : Step) : Step := st.clampTimes.clampMeasures

/-- The final index among the first `count` steps: the lowest with LAST set, else the last of them (R62). -/
def finalIndexOf (count : Nat) (steps : Vector Step 20) : Fin 20 :=
  ((List.finRange 20).find? fun i => decide (i.val < count) && steps[i].last).getD
    (Fin.ofNat 20 (count - 1))

/-- One claim fits this node's capacities (R58, R66). -/
def claimOk (c : Settings) (k : Claim) : Bool :=
  decide (c.capacityAt k.resource ≠ 0 ∧ k.demand ≠ 0 ∧ k.demand ≤ c.capacityAt k.resource)

/-- A step in use does not make its recipe unusable (R66). -/
def stepUsable (c : Settings) (sets : Vector ConvSet 4) (st : Step) : Bool :=
  decide (st.claimCount ≤ 3)
    && st.claims.all (claimOk c)
    && decide (st.claims.map (·.resource)).Nodup
    && (match st.convSet with
        | .none => decide (st.routing ≠ .divert)
        | .set n => sets[n].usable && decide (st.cmin ≤ st.cmax)
        | .bad _ => false)
    && (match st.routing with
        | .bad _ => false
        | _ => true)

/-- The CHAIN flag of a step is valid against the step before it (R67). -/
def chainValid (prev st : Step) : Bool :=
  decide (st.claims ≠ [])
    && st.claims.all (fun k => prev.claims.any fun p => decide (p.resource = k.resource ∧ k.demand ≤ p.demand))
    && prev.claims.all (fun p => st.claims.any fun k => decide (k.resource = p.resource))
    && !st.hold

/-- The steps of a usable recipe with each invalid CHAIN flag in use cleared (R67). -/
def judgeChains (final : Fin 20) (steps : Vector Step 20) : Vector Step 20 :=
  Vector.ofFn fun i =>
    let st := steps[i]
    let ok : Bool := if h : 0 < i.val then chainValid steps[i.val - 1] st else false
    if i ≤ final ∧ st.chain = true ∧ ok = false then { st with chain := false } else st

/-- A recipe after validation, with the flags its validation sets: CLAMPED, RECIPE_UNUSABLE, CHAIN_IGNORED (R56, R62 to R67). -/
structure Validated where
  recipe : Recipe
  clamped : Bool
  unusable : Bool
  chainIgnored : Bool
deriving DecidableEq, Repr

/-- Validation of one recipe (R63): header, final index, clamps, usability, chains. A step count of 0 or above 20 goes no further than the header. -/
def validateRecipe (c : Settings) (sets : Vector ConvSet 4) (r : Recipe) : Validated :=
  let header := { r with baseUrgency := min r.baseUrgency 62 }
  let urgencyClamped := r.baseUrgency != min r.baseUrgency 62
  if r.stepCount = 0 ∨ 20 < r.stepCount then
    ⟨{ header with usable := false }, urgencyClamped, true, false⟩
  else
    let final := finalIndexOf r.stepCount r.steps
    let steps : Vector Step 20 := Vector.ofFn fun i => if i ≤ final then r.steps[i].clamp else r.steps[i]
    let clamped := urgencyClamped || steps != r.steps
    if (List.finRange 20).all (fun i => decide (final < i) || stepUsable c sets steps[i]) then
      let chained := judgeChains final steps
      ⟨{ header with steps := chained, usable := true, finalIndex := final }, clamped, false, chained != steps⟩
    else
      ⟨{ header with steps := steps, usable := false, finalIndex := final }, clamped, true, false⟩

/-- What VALIDATING leaves: the settings, the store, and which sticky flags it sets (R63, R163, R179). -/
structure Loaded where
  settings : Settings
  store : Store
  clamped : Bool
  unusable : Bool
  chainIgnored : Bool
deriving DecidableEq, Repr

/-- Clamping and validation of an accepted image (R63, R179): settings first, then the sets, then the recipes in slot order. -/
def loadImage (bytes : List Byte) : Loaded :=
  let c := readSettings bytes
  let setBytes := bytes.drop 41
  let sets : Vector (ConvSet × Bool) 4 := Vector.ofFn fun i => readConvSet ((setBytes.drop (7 * i.val)).take 7)
  let convs : Vector ConvSet 4 := Vector.ofFn fun i => (sets[i]).1
  let slotBytes := bytes.drop 69
  let recipes : Vector Validated 4 :=
    Vector.ofFn fun i => validateRecipe c.1 convs (readRecipe ((slotBytes.drop (642 * i.val)).take 642))
  { settings := c.1
    store := ⟨convs, Vector.ofFn fun i => (recipes[i]).recipe⟩
    clamped := c.2 || allFour.any (fun i => (sets[i]).2) || allFour.any (fun i => (recipes[i]).clamped)
    unusable := allFour.any fun i => (recipes[i]).unusable
    chainIgnored := allFour.any fun i => (recipes[i]).chainIgnored }

end Sys2Proof.Machine
end

