-- ==== Sys2Proof/Machine/Verifier.lean ====
section
/-! DEFINITION. The contact verifier: its notices (R98, R99), the sample computation (R100 to R112, R114), and what it presents (R111, R113, R117, R118). -/

namespace Sys2Proof.Machine

/-- The modes in which a step runs (section 5.2). -/
def Mode.isRunning : Mode → Bool
  | .off => false
  | .standby => false
  | .burst => true
  | .burstDone => true
  | .pause => true
  | .halted => true

/-! ### Notices of the round sequencer (R98) -/

/-- Round start: the three numerators are set to 0. -/
def Verifier.roundStart (v : Verifier) : Verifier := { v with returned := 0, recovered := 0, drained := 0 }

/-- Required credit of a step: contact time × 16 × samples in a second (R99). -/
def requiredCredit (sampleMs : Nat) (st : Step) : Nat := st.contact * Config.baseWeight * (1000 / sampleMs)

/-- New attempt: the attempt is begun by R99 and the mode becomes STANDBY. -/
def Verifier.newAttempt (sampleMs : Nat) (st : Step) (v : Verifier) : Verifier :=
  { v with
    mode := .standby, required := requiredCredit sampleMs st, credit := 0, dropout := 0, sensorLoss := 0
    divert := if st.routing = .recover then .recover else .drain
    waitMs := 0, runMs := 0, minTr := none, maxTr := none, peak := none, reps := 0, restarts := 0 }

/-- Running in BURST: the run time starts from 0 and the mode becomes BURST. -/
def Verifier.runningInBurst (v : Verifier) : Verifier := { v with mode := .burst, runMs := 0 }

/-- Pause begins: one more repetition done, credit and dropout cleared. -/
def Verifier.pauseBegins (v : Verifier) : Verifier :=
  { v with mode := .pause, reps := v.reps + 1, credit := 0, dropout := 0 }

/-- New burst: one more repetition done, credit and dropout cleared. -/
def Verifier.newBurst (v : Verifier) : Verifier :=
  { v with mode := .burst, reps := v.reps + 1, credit := 0, dropout := 0 }

/-- Last repetition: one more repetition done; the mode stays until the attempt ends. -/
def Verifier.lastRepetition (v : Verifier) : Verifier := { v with reps := v.reps + 1 }

/-- Pause ends: the mode becomes BURST. -/
def Verifier.pauseEnds (v : Verifier) : Verifier := { v with mode := .burst }

/-- Attempt ended: times and statistics stop with the mode (R115, R117). -/
def Verifier.attemptEnded (v : Verifier) : Verifier := { v with mode := .off }

/-- Round ended: any attempt still open is ended (R98). -/
def Verifier.roundEnded (v : Verifier) : Verifier := v.attemptEnded

/-! ### From conductivity to concentration (R100, R101) -/

/-- D = 10000 + α × (Tr − 250), the difference signed (R100). -/
def compensationDivisor (alpha tr : Nat) : Nat :=
  ((10000 : Int) + (alpha : Int) * ((tr : Int) - 250)).toNat

/-- κ compensated to 25 °C, rounded half up and clamped to 65535 (R100). -/
def kappa25Of (alpha tr kappa : Nat) : Nat :=
  let d := compensationDivisor alpha tr
  min ((kappa * 10000 + d / 2) / d) 65535

/-- Concentration in 0.01 %, rounded half up and clamped to 9999 (R101). -/
def concOf (slope kappa25 : Nat) : Nat := min ((kappa25 * slope + 500) / 1000) 9999

/-- A sample with the values computed from it; κ25 and conc only where the step names a set and κ and Tr are present (R100, R101). -/
def compute (set : Option ConvSet) (x : Sample) : Taken :=
  match set, x.kappa, x.tr with
  | some c, some k, some t =>
    ⟨x, some (kappa25Of c.alpha t k), some (concOf c.slope (kappa25Of c.alpha t k))⟩
  | _, _, _ => ⟨x, none, none⟩

/-! ### Band and weight (R102, R103) -/

/-- Every required channel is present: Tr and Fs, and κ where the step names a set (R102). -/
def requiredPresent (st : Step) (x : Sample) : Bool :=
  x.tr.isSome && x.fs.isSome && (decide (st.convSet = .none) || x.kappa.isSome)

/-- The sample meets the step's band (R102). -/
def inBand (st : Step) (t : Taken) : Bool :=
  requiredPresent st t.sample
    && (match t.sample.tr with
        | some tr => decide (st.tmin ≤ tr)
        | none => false)
    && (match t.sample.fs with
        | some fs => decide (st.fmin ≤ fs)
        | none => false)
    && (decide (st.convSet = .none)
        || (match t.conc with
            | some c => decide (st.cmin ≤ c ∧ c ≤ st.cmax)
            | none => false))

/-- The weight of an in-band sample (R103). -/
def weight (st : Step) (tr : Nat) : Nat :=
  if st.span = 0 then Config.baseWeight
  else min (Config.baseWeight + (Config.baseWeight * (tr - st.tmin)) / st.span) Config.weightCap

/-! ### Divert, volume and statistics (R110, R112, R114) -/

/-- The divert state decided for a sample (R110). -/
def decideDivert (st : Step) (set : Option ConvSet) (conc : Option Nat) (d : Divert) : Divert :=
  match st.routing with
  | .drain => .drain
  | .recover => .recover
  | .divert =>
    match set, conc with
    | some c, some k =>
      match d with
      | .drain => if c.recover ≤ k then .recover else .drain
      | .recover => if k < c.drain then .drain else .recover
    | _, _ => d
  | .bad _ => d

/-- The volume of a sample whose Fr is present, steered by the divert state decided for it (R112). -/
def Verifier.addVolume (sampleMs : Nat) (fr : Option Nat) (v : Verifier) : Verifier :=
  match fr with
  | none => v
  | some f =>
    let amount := f * sampleMs
    if Config.numeratorLimit ≤ v.returned + amount then v
    else match v.divert with
      | .recover => { v with returned := v.returned + amount, recovered := v.recovered + amount }
      | .drain => { v with returned := v.returned + amount, drained := v.drained + amount }

/-- The lower of a value and a reading; none takes the reading (R114). -/
def lowerOf (a : Option Nat) (x : Option Nat) : Option Nat :=
  match a, x with
  | some m, some t => some (min m t)
  | none, some t => some t
  | a, none => a

/-- The higher of a value and a reading; none takes the reading (R114). -/
def higherOf (a : Option Nat) (x : Option Nat) : Option Nat :=
  match a, x with
  | some m, some t => some (max m t)
  | none, some t => some t
  | a, none => a

/-- The attempt's statistics after a sample (R114). -/
def Verifier.addStats (t : Taken) (v : Verifier) : Verifier :=
  { v with minTr := lowerOf v.minTr t.sample.tr, maxTr := higherOf v.maxTr t.sample.tr, peak := higherOf v.peak t.conc }

/-! ### Credit and sensor loss (R104 to R109) -/

/-- What the verifier reports to the round sequencer from a sample (R106, R109). -/
inductive VerReport where
  | nothing | burstComplete | sensorLost
deriving DecidableEq, Repr

/-- What a sample does: the verifier, its report, and whether SENSOR_ABSENT is set (R108). -/
structure SampleEffect where
  ver : Verifier
  report : VerReport
  sensorAbsent : Bool
deriving DecidableEq, Repr

/-- Raise the credit by a weight up to the required credit, and report the burst complete when it gets there (R104, R106). -/
def Verifier.addCredit (w : Nat) (v : Verifier) : SampleEffect :=
  let credit := min (v.credit + w) v.required
  if credit = v.required then ⟨{ v with credit := credit, mode := .burstDone }, .burstComplete, false⟩
  else ⟨{ v with credit := credit }, .nothing, false⟩

/-- An out-of-band sample: the dropout count rises, and past the grace the credit is thrown away (R105). -/
def Verifier.addDropout (grace : Nat) (v : Verifier) : Verifier :=
  if grace < v.dropout + 1 then
    { v with credit := 0, dropout := 0, restarts := min (v.restarts + 1) 255 }
  else { v with dropout := v.dropout + 1 }

/-- A sample in BURST of a step that is not TIMED (R102 to R105, R108, R109). -/
def Verifier.burstSample (limit : Nat) (st : Step) (t : Taken) (v : Verifier) : SampleEffect :=
  if inBand st t then
    ({ v with sensorLoss := 0, dropout := 0 }).addCredit (weight st (t.sample.tr.getD 0))
  else
    let v1 := v.addDropout st.grace
    if requiredPresent st t.sample then ⟨{ v1 with sensorLoss := 0 }, .nothing, false⟩
    else if limit ≤ v.sensorLoss + 1 then
      ⟨{ v1 with sensorLoss := v.sensorLoss + 1, mode := .halted }, .sensorLost, true⟩
    else ⟨{ v1 with sensorLoss := v.sensorLoss + 1 }, .nothing, true⟩

/-- The verifier takes one sample and deals with it by its mode (R97, section 5.2). -/
def Verifier.takeSample (sampleMs limit : Nat) (st : Step) (set : Option ConvSet) (x : Sample) (v : Verifier) : SampleEffect :=
  if v.mode.isRunning then
    let t := compute set x
    let v1 := { v with current := some t, divert := decideDivert st set t.conc v.divert }
    let v2 := (v1.addVolume sampleMs x.fr).addStats t
    match v.mode with
    | .burst => if st.timed then v2.addCredit Config.baseWeight else v2.burstSample limit st t
    | .pause => ⟨if requiredPresent st x then { v2 with sensorLoss := 0 } else v2, .nothing, false⟩
    | _ => ⟨v2, .nothing, false⟩
  else ⟨{ v with current := some ⟨x, none, none⟩ }, .nothing, false⟩

/-! ### What the verifier presents (R111, R113, R117, R118) -/

/-- The presented divert state: its own while a step runs, DRAIN otherwise (R111). -/
def Verifier.presented (v : Verifier) : Divert := if v.mode.isRunning then v.divert else .drain

/-- Whole litres of a numerator, stopping at 65535 (R113). -/
def litres (n : Nat) : Nat := min (n / Config.unitsPerLitre) 65535

/-- Whole seconds of a time kept in ms, stopping at 65535 (R115). -/
def wholeSeconds (ms : Nat) : Nat := min (ms / 1000) Config.attemptTimeMax

/-- The result of an attempt: the frozen statistics beside the step index and outcome (R117, R165). -/
def Verifier.result (v : Verifier) (step : Fin 20) (o : AttemptOutcome) : StepResult :=
  { step := step, outcome := o, reps := v.reps, restarts := v.restarts, waitSeconds := wholeSeconds v.waitMs
    runSeconds := wholeSeconds v.runMs, minTr := v.minTr, maxTr := v.maxTr, peak := v.peak }

/-- Credit percent of STATUS: 0 in OFF and STANDBY (R118, R171). -/
def Verifier.creditPercent (v : Verifier) : Nat :=
  if v.mode.isRunning then v.credit * 100 / v.required else 0

end Sys2Proof.Machine
end

