-- ==== Sys2Proof/Machine/Formats.lean ====
section
/-! DEFINITION. The images the node sends: its own frames (R149, R186), STATUS (R171, R187), the record image and its fragments (R166, R169, R188), and the SAMPLE request (R189). -/

namespace Sys2Proof.Machine

/-! ### Own frames (R133, R149, R186) -/

/-- A frame as its sender drives it: the length counts the payload bytes, and the check value runs over arbitration word, length and
payload (R133, R184, R186). -/
def sentFrame (word : Word16) (payload : List Byte) : OwnCopy :=
  { word := word, length := BitVec.ofNat 4 payload.length, payload := payload, check := frameCheck word payload }

/-- The 16-bit field of a resource set (R183). -/
def setWord (rs : List Res) : Word16 := rs.foldl (fun w r => w ||| BitVec.twoPow 16 r.val) 0

/-- State code of an ANNOUNCE (R186). -/
def AnnState.code : AnnState → Nat
  | .wait => 0
  | .claim => 1
  | .run => 2

/-- The bytes of an ANNOUNCE: state, life, count, pairs (R186). -/
def announcePayload (state life : Nat) (pairs : List Pair) : List Byte :=
  [BitVec.ofNat 8 state, BitVec.ofNat 8 life, BitVec.ofNat 8 pairs.length]
    ++ pairs.flatMap fun p => [BitVec.ofNat 8 p.res.val, BitVec.ofNat 8 p.demand]

/-- The bytes of a RELEASE: role, resource set (R186). -/
def releasePayload (role : Nat) (rs : List Res) : List Byte := BitVec.ofNat 8 role :: bytes16 (setWord rs).toNat

/-- The frame of the own step slot (R149, R186). -/
def OwnFrame.frame (node : Nat) : OwnFrame → OwnCopy
  | .announce st key life pairs => sentFrame (arbWord 3 key) (announcePayload st.code life pairs)
  | .release rs => sentFrame (arbWord 2 node) (releasePayload 0 rs)

/-- The frame of a product slot: a PRODUCT pair carries demand 255 (R53, R149, R186). -/
def ProdFrame.frame (node : Nat) : ProdFrame → OwnCopy
  | .announce life r => sentFrame (arbWord 3 node) (announcePayload 3 life [⟨r, 255⟩])
  | .release r => sentFrame (arbWord 2 node) (releasePayload 1 [r])

/-! ### STATUS (R171, R187) -/

/-- Code of a round state (R187). -/
def RoundState.code : RoundState → Nat
  | .idle => 0
  | .holdWait => 1
  | .waiting => 2
  | .claiming => 3
  | .running => 4
  | .suspended => 5
  | .closing => 6

/-- Code of an admission state (R187). -/
def AdmState.code : AdmState → Nat
  | .learning => 0
  | .active => 1

/-- Code of a link state (R187). -/
def LinkState.code : LinkState → Nat
  | .engaged => 0
  | .reticent => 1
  | .detached => 2
  | .barred => 3

/-- Code of a phase (R187). -/
def RunPhase.code : RunPhase → Nat
  | .burst => 0
  | .pause => 1

/-- Code of a divert state (R187). -/
def Divert.code : Divert → Nat
  | .drain => 0
  | .recover => 1

/-- Code of a last suspension cause (R187). -/
def causeCode : Option Cause → Nat
  | none => 0
  | some .sensorLost => 1
  | some .stepTime => 2
  | some .linkLost => 3
  | some .leaseLost => 4
  | some .routeTaken => 5

/-- The 12 bytes of a STATUS made now (R171, R187). -/
def statusBytes (s : State) : List Byte :=
  let b (n : Nat) : Byte := BitVec.ofNat 8 n
  [ b (s.seq.state.code * 32 + s.adm.state.code * 16 + s.link.state.code * 4 + s.seq.phase.code * 2
      + s.ver.presented.code),
    b s.seq.roundNumber,
    b (s.seq.slot.val * 64 + s.seq.pointer.val),
    b s.seq.repeats,
    b s.ver.creditPercent,
    b s.adm.urgency,
    b s.link.tec,
    b s.link.recCount,
    b (s.log.queue.length * 32 + causeCode s.seq.lastCause),
    b s.log.dropped ] ++ bytes16 s.log.flags.toNat

/-! ### The record image and its fragments (R166, R169, R188) -/

/-- Code of a round outcome (R188). -/
def RoundOutcome.code : RoundOutcome → Nat
  | .complete => 0
  | .aborted => 1
  | .stopped => 2
  | .abandoned => 3

/-- Code of an attempt outcome (R188). -/
def AttemptOutcome.code : AttemptOutcome → Nat
  | .done => 0
  | .shed => 1
  | .cut => 2
  | .failedSensor => 3
  | .failedTime => 4
  | .failedLink => 5
  | .failedLease => 6
  | .failedRoute => 7

/-- A field that may hold no value holds 65535 for that case (section 9.2). -/
def noneWord (o : Option Nat) : List Byte := bytes16 (o.getD 65535)

/-- The 14 bytes of a step result (R188). -/
def StepResult.bytes (r : StepResult) : List Byte :=
  [BitVec.ofNat 8 r.step.val, BitVec.ofNat 8 r.outcome.code, BitVec.ofNat 8 r.reps, BitVec.ofNat 8 r.restarts]
    ++ bytes16 r.waitSeconds ++ bytes16 r.runSeconds ++ noneWord r.minTr ++ noneWord r.maxTr ++ noneWord r.peak

/-- The 20 bytes of a record header (R188). -/
def Record.headerBytes (r : Record) : List Byte :=
  bytes16 r.roundNumber
    ++ [BitVec.ofNat 8 r.slot.val, BitVec.ofNat 8 r.endIndex, BitVec.ofNat 8 r.outcome.code,
        BitVec.ofNat 8 (causeCode r.lastCause), BitVec.ofNat 8 r.suspendCount,
        BitVec.ofNat 8 ((if r.truncated then 128 else 0) + r.results.length)]
    ++ bytes32 r.startUptime ++ bytes32 r.endUptime ++ bytes16 r.recovered ++ bytes16 r.drained

/-- The image of a record: the header and the results in list order (R188). -/
def Record.image (r : Record) : List Byte := r.headerBytes ++ r.results.flatMap StepResult.bytes

/-- Fragments of a record: image length plus 7, divided by 8 (R166). -/
def Record.fragmentCount (r : Record) : Nat := (20 + 14 * r.results.length + 7) / 8

/-- The 8 data bytes of fragment k, padded with 0 (R166). -/
def Record.fragment (r : Record) (k : Nat) : List Byte :=
  let data := (r.image.drop (8 * k)).take 8
  data ++ List.replicate (8 - data.length) 0

/-- The RECORD frame of fragment k (R169, R186). -/
def Record.frame (node : Nat) (r : Record) (k : Nat) : OwnCopy :=
  sentFrame (arbWord 6 node) (bytes16 r.roundNumber ++ [BitVec.ofNat 8 k, BitVec.ofNat 8 r.fragmentCount] ++ r.fragment k)

/-- The record fragment stream: the head record and its next undelivered fragment, or nothing (R169). -/
def Log.stream (l : Log) : Option (Record × Nat) :=
  match l.queue with
  | [] => none
  | r :: _ => some (r, l.nextFragment)

/-! ### The front-end line (R189) -/

/-- The SAMPLE request of a request number (R189). -/
def sampleRequest (n : Nat) : Byte × Byte := (0x5A#8, BitVec.ofNat 8 n)

end Sys2Proof.Machine
end

