-- ==== Sys2Proof/Machine/Ops.lean ====
section
/-! DEFINITION. Operations that several commands share: the slots and the selector's choice (R156 to R159), the update queue and own operations (R8, R9, R33), STATUS and the round state (R74, R172), the record queue (R165 to R169), and the output lines (R87, R128 to R130). -/

namespace Sys2Proof.Machine

/-- Start-up has completed and the blocks work (R175). -/
def State.isRunning (s : State) : Bool := decide (s.loader.phase = .running)

/-- The link state is ENGAGED or RETICENT: the node sends, answers and applies (section 7.5). -/
def State.onLine (s : State) : Bool := decide (s.link.state = .engaged ∨ s.link.state = .reticent)

/-- A running timer has reached its limit. -/
def Timer.due (limit : Nat) (t : Timer) : Bool := t.on && decide (limit ≤ t.ms)

/-- The current step record (R96). -/
def State.curStep (s : State) : Step := s.store.slots[s.seq.slot].steps[s.seq.pointer]

/-- The conversion set a step names (R57). -/
def State.convSet (s : State) (st : Step) : Option ConvSet :=
  match st.convSet with
  | .none => none
  | .set n => some s.store.sets[n]
  | .bad _ => none

/-- A step's claims as resource and demand pairs, in stored order (R58). -/
def Step.pairs (st : Step) : List Pair :=
  st.claims.filterMap fun c => (resourceOf c.resource).map fun r => ⟨r, c.demand⟩

/-- The resources of pairs. -/
def resourcesOf (ps : List Pair) : List Res := ps.map (·.res)

/-! ### Slots and replacement marks (R155, R156) -/

/-- Set or clear the mark of a slot. -/
def Marks.put (m : Marks) (v : Bool) : SlotId → Marks
  | .own => { m with own := v }
  | .product i => { m with product := modAt m.product i fun _ => v }
  | .status => { m with status := v }
  | .stream => { m with stream := v }

/-- The mark of a slot. -/
def Marks.get (m : Marks) : SlotId → Bool
  | .own => m.own
  | .product i => m.product[i]
  | .status => m.status
  | .stream => m.stream

/-- A slot is replaced: its mark is set while a copy taken from it is on the medium (R156). -/
def Selector.replaced (t : Selector) (slot : SlotId) : Selector :=
  if t.copyFrom = some slot then { t with marks := t.marks.put true slot } else t

/-- Place content, or empty content, in the own step slot (R156). -/
def State.placeOwn (s : State) (c : Option OwnFrame) : State :=
  s.onTx fun t => { t.replaced .own with own := c }

/-- Place content, or empty content, in a product slot (R156). -/
def State.placeProduct (s : State) (i : Fin 4) (c : Option ProdFrame) : State :=
  s.onTx fun t => { t.replaced (.product i) with product := modAt t.product i fun _ => c }

/-- Place a STATUS in the status slot, with the suspend time shown beside its bytes (R89, R156, R172). -/
def State.placeStatus (s : State) (bytes : List Byte) (suspendMs : Nat) : State :=
  s.onTx fun t => { t.replaced .status with status := some bytes, statusSuspend := some suspendMs }

/-! ### STATUS and the round state (R74, R172) -/

/-- Make a STATUS: the snapshot is placed, the flags standing are the carried set, every renewal mark is cleared (R172). -/
def State.makeStatus (s : State) : State :=
  (s.placeStatus (statusBytes s) s.seq.suspendTimer.ms).onLog fun l => { l with carried := l.flags, renewal := 0 }

/-- A change of round state, at which a STATUS is made (R74, R172). -/
def State.setRound (s : State) (r : RoundState) : State :=
  if s.seq.state = r then s else (s.onSeq fun q => { q with state := r }).makeStatus

/-! ### The update queue (R8, R9) and own operations (R33) -/

/-- An operation arrives at the tail; the count reaching 12 begins hold-off (R8, R9). -/
def State.enqueue (s : State) (op : Op) : State :=
  let s1 := s.onUpdates fun u => { u with ops := u.ops ++ [op] }
  if Config.holdOffOn ≤ s1.updates.ops.length ∧ s.updates.holdOff = false then
    ((s1.onUpdates fun u => { u with holdOff := true }).onLink fun l => { l with holdOffMoved := true }).sticky
      .holdoffAsserted
  else s1

/-- The operation at the head completes; the count falling to 8 ends hold-off (R8, R9). -/
def State.dequeue (s : State) : State :=
  let s1 := s.onUpdates fun u => { u with ops := u.ops.tail }
  if s1.updates.ops.length ≤ Config.holdOffOff ∧ s.updates.holdOff = true then
    (s1.onUpdates fun u => { u with holdOff := false }).onLink fun l => { l with holdOffMoved := true }
  else s1

/-- The admission unit places an own operation; with two outstanding it waits in the admission unit (R33). -/
def State.placeOp (s : State) (op : Op) : State :=
  if s.adm.outstanding < Config.outstandingMax then
    (s.onAdm fun a => { a with outstanding := a.outstanding + 1 }).enqueue op
  else s.onAdm fun a => { a with waiting := a.waiting ++ [op] }

/-- An own operation's result is handed back: one fewer outstanding, and the first waiting one is placed (R33). -/
def State.opDone (s : State) : State :=
  match s.adm.waiting with
  | [] => s.onAdm fun a => { a with outstanding := a.outstanding - 1 }
  | op :: rest => (s.onAdm fun a => { a with waiting := rest }).enqueue op

/-! ### Records (R165 to R169) -/

/-- Begin a record under composition for the round just taken (R166). The header fields left to be filled at the round's end hold
COMPLETE, no cause, and 0 until then. DESIGN CHOICE [35]; they are read only once filled. -/
def State.beginRecord (s : State) : State :=
  s.onLog fun l =>
    { l with
      comp := some
        { record :=
            { roundNumber := s.seq.roundNumber, slot := s.seq.slot, endIndex := s.seq.endIndex
              outcome := .complete, lastCause := none, suspendCount := 0, truncated := false
              startUptime := 0, endUptime := 0, recovered := 0, drained := 0, results := [] }
          complete := false } }

/-- Append a result, or mark the record truncated once it holds 32 (R165). -/
def Record.addResult (r : Record) (x : StepResult) : Record :=
  if r.results.length < Config.resultsMax then { r with results := r.results ++ [x] }
  else { r with truncated := true }

/-- A result is handed to the record unit; without a record under composition it is discarded (R165). -/
def State.handResult (s : State) (x : StepResult) : State :=
  s.onLog fun l => { l with comp := l.comp.map fun c => { c with record := c.record.addResult x } }

/-- The round's header fields, filled in at CLOSING (R94, R166). -/
def State.completeRecord (s : State) (o : RoundOutcome) : State :=
  s.onLog fun l =>
    { l with
      comp := l.comp.map fun c =>
        { record :=
            { c.record with
              outcome := o, lastCause := s.seq.lastCause, suspendCount := s.seq.suspendCount
              startUptime := s.seq.startUptime, endUptime := s.loader.uptime
              recovered := litres s.ver.recovered, drained := litres s.ver.drained }
          complete := true } }

/-- The record joins the tail of the queue, the head of an empty queue starting at fragment 0 (R167). -/
def Log.append (l : Log) (r : Record) : Log :=
  { l with queue := l.queue ++ [r], nextFragment := if l.queue = [] then 0 else l.nextFragment, comp := none }

/-- The head leaves the queue; the next starts at fragment 0 (R167, R169). -/
def Log.dropHead (l : Log) : Log := { l with queue := l.queue.tail, nextFragment := 0 }

/-- The completed record is waiting for room (R168). -/
def Log.waitingRecord (l : Log) : Option Record :=
  match l.comp with
  | some c => if c.complete then some c.record else none
  | none => none

/-- Take the completed record into the queue, if the queue or the policy makes room (R167, R168). -/
def State.takeRecord (s : State) : State :=
  match s.log.waitingRecord with
  | none => s
  | some r =>
    if s.log.queue.length < Config.recordQueueMax then s.onLog fun l => l.append r
    else match s.settings.policy with
      | .dropOldest =>
        ((s.onTx fun t => t.replaced .stream).onLog fun l =>
          ({ l.dropHead with dropped := min (l.dropped + 1) 255 }).append r).sticky .recordDropped
      | .holdRounds => s

/-! ### The selector's choice (R157 to R159) -/

/-- The pending class-A slots with their frames, the own step slot first and the product slots in line order (R158). -/
def State.classA (s : State) : List (SlotId × OwnCopy) :=
  (match s.tx.own with
    | some c => [(SlotId.own, c.frame s.settings.node)]
    | none => [])
  ++ allFour.filterMap fun i => (s.tx.product[i]).map fun c => (SlotId.product i, c.frame s.settings.node)

/-- The first frame with the lowest arbitration word (R158). -/
def lowestWord : List (SlotId × OwnCopy) → Option (SlotId × OwnCopy)
  | [] => none
  | x :: rest =>
    match lowestWord rest with
    | none => some x
    | some y => if y.2.word.toNat < x.2.word.toNat then some y else some x

/-- The frame of the status slot (R149). -/
def State.statusFrame (s : State) : Option OwnCopy := s.tx.status.map (sentFrame (arbWord 5 s.settings.node))

/-- The frame of the record fragment stream (R169). -/
def State.streamFrame (s : State) : Option OwnCopy :=
  s.log.stream.map fun x => x.1.frame s.settings.node x.2

/-- A choice: the slot, its frame, and the turn and turn count after it. -/
structure Choice where
  slot : SlotId
  frame : OwnCopy
  turn : Turn
  count : Nat
deriving DecidableEq, Repr

/-- The round robin between classes B and C (R159). -/
def roundRobin (turn : Turn) (count weight : Nat) (mine other : Option (SlotId × OwnCopy)) : Option Choice :=
  let theOther : Turn := match turn with
    | .b => .c
    | .c => .b
  match mine, other with
  | some x, none => some ⟨x.1, x.2, turn, if count < weight then count else 0⟩
  | some x, some y => if count < weight then some ⟨x.1, x.2, turn, count⟩ else some ⟨y.1, y.2, theOther, 0⟩
  | none, some y => some ⟨y.1, y.2, theOther, 0⟩
  | none, none => none

/-- The choice among everything that waits: class A by word, else the round robin (R158, R159). -/
def State.choose (s : State) : Option Choice :=
  match lowestWord s.classA with
  | some x => some ⟨x.1, x.2, s.tx.turn, s.tx.turnCount⟩
  | none =>
    let b := s.statusFrame.map fun f => (SlotId.status, f)
    let c := s.streamFrame.map fun f => (SlotId.stream, f)
    match s.tx.turn with
    | .b => roundRobin .b s.tx.turnCount s.settings.wB b c
    | .c => roundRobin .c s.tx.turnCount s.settings.wC c b

/-- A choice may be made now (R157): the medium is idle and nothing bars an offer. -/
def State.mayOffer (s : State) : Bool :=
  s.isRunning && s.onLine && decide (s.link.medium = .idle ∧ s.link.role = .none)
    && !s.tx.holdBack.on && decide (s.tx.copyFrom = none)

/-- Offer a frame where a choice may be made and anything is pending: it becomes the own copy and the node its sender (R134, R157). -/
def State.offer (s : State) : State :=
  if s.mayOffer then
    match s.choose with
    | none => s
    | some c =>
      (s.onTx fun t =>
        { t with
          copyFrom := some c.slot, marks := t.marks.put false c.slot, turn := c.turn, turnCount := c.count }).onLink
        fun l => { l with copy := some c.frame, role := .sender, medium := .busy, holdOffMoved := false }
  else s

/-! ### Output and indicator lines (R87, R128 to R130) -/

/-- The pattern the round sequencer chooses (R87). -/
def State.pattern (s : State) : BitVec 12 :=
  match s.seq.state, s.seq.phase with
  | .running, .burst => s.curStep.active
  | .running, .pause => s.curStep.pause
  | _, _ => s.settings.rest

/-- A pattern with the divert line replaced by the presented divert state: energised for RECOVER (R129). -/
def withDivert (line : Option (Fin 12)) (d : Divert) (p : BitVec 12) : BitVec 12 :=
  match line with
  | none => p
  | some i =>
    match d with
    | .recover => p ||| BitVec.twoPow 12 i.val
    | .drain => p &&& ~~~(BitVec.twoPow 12 i.val)

/-- The state of V1 to V12 (R128, R129). -/
def State.lines (s : State) : BitVec 12 :=
  if s.isRunning then withDivert s.settings.divertLine s.ver.presented s.pattern else 0

/-- The four indicators (R130). -/
def State.lights (s : State) : Indicators :=
  match s.loader.phase with
  | .running =>
    { round := decide (s.seq.state ≠ .idle)
      operator := decide (s.seq.state = .holdWait ∨ s.seq.state = .suspended)
      fault := decide (s.link.state = .barred) || s.port.silent
      link := decide (s.link.state = .engaged ∧ s.adm.state = .active) }
  | .configFault => ⟨false, false, true, false⟩
  | _ => ⟨false, false, false, false⟩

/-- Drive the output and indicator lines (R128, R130). -/
def State.drive (s : State) : State := s.onPort fun p => { p with outputs := s.lines, indicators := s.lights }

/-- The end of every command: what is pending is offered where it may be, and the lines follow (R87, R130, R157). -/
def State.finish (s : State) : State := s.offer.drive

end Sys2Proof.Machine
end

