-- ==== Sys2Proof/Machine/Admission.lean ====
section
/-! DEFINITION. The admission unit's standing requests (R34, R35, R46, R47), its evaluations (R32, R33), and the reports that move the round between WAITING, CLAIMING and RUNNING (R75, R78, R81). -/

namespace Sys2Proof.Machine

/-- The key of every own CIP entry and announcement (R27). -/
def State.ownKey (s : State) : Nat := 64 * (63 - s.adm.urgency) + s.settings.node

/-- The pairs of the standing request. -/
def State.ownPairs (s : State) : List Pair :=
  match s.adm.standing with
  | some st => st.pairs
  | none => []

/-- The base urgency of the recipe of the current round (R28, R56). -/
def State.baseUrgency (s : State) : Nat := s.store.slots[s.seq.slot].baseUrgency

/-- The own step enters a state: a new stay begins, and the timers that do not belong to the state stop (section 2.5). -/
def Admission.enter (o : OwnState) (a : Admission) : Admission :=
  { a with
    own := o, stay := a.stay + 1, wantedSettle := false, granting := false
    settle := .stopped, refresh := .stopped, guard := .stopped
    lapse := if o = .runPending then a.lapse else .stopped }

/-! ### Evaluations (R32, R33) -/

/-- An evaluation of the own step is possible (R32). -/
def State.canEvaluate (s : State) : Bool := decide (s.adm.state = .active ∧ s.link.state = .engaged)

/-- The own step is in a state that is evaluated (R32). -/
def OwnState.evaluated : OwnState → Bool
  | .none => false
  | .waiting => true
  | .claiming => true
  | .runPending => true
  | .running => false

/-- A trigger requests an evaluation: at most one is outstanding or waiting, a further one is marked as wanted (R32, R33, R40). -/
def State.requestEval (s : State) (settle : Bool) : State :=
  if s.canEvaluate && s.adm.own.evaluated then
    match s.adm.evalReq with
    | none => (s.onAdm fun a => { a with evalReq := some ⟨a.stay, settle⟩ }).placeOp .evaluate
    | some _ => s.onAdm fun a => { a with wanted := true, wantedSettle := a.wantedSettle || settle }
  else s

/-! ### Reports to the round sequencer (R75, R78, R81) -/

/-- A report made now carries the current attempt's tag (R75). -/
def State.tagCurrent (s : State) : Bool :=
  match s.adm.standing with
  | some st => st.tag == s.seq.tag
  | none => false

/-- The round enters RUNNING: BURST, repeats loaded, step timer from 0, the verifier told (R81). -/
def State.enterRunning (s : State) : State :=
  ((s.onSeq fun q => { q with phase := .burst, repeats := s.curStep.repeats, stepTimer := .from 0 }).onVer
    Verifier.runningInBurst).setRound .running

/-- The attempt begins afresh after a chain request that found the grant stopped (R78). -/
def State.restartAttempt (s : State) : State :=
  ((s.onSeq fun q =>
      { q with phase := .burst, repeats := s.curStep.repeats, stepTimer := .stopped, pauseTimer := .stopped }).onVer
    (Verifier.newAttempt s.settings.sampleMs s.curStep)).setRound .waiting

/-- A WAITING report (R78). -/
def State.reportWaiting (s : State) : State :=
  if s.tagCurrent then
    match s.seq.state with
    | .claiming => s.setRound .waiting
    | .running => s.restartAttempt
    | _ => s
  else s

/-- A CLAIMING report (R78). -/
def State.reportClaiming (s : State) : State :=
  if s.tagCurrent then
    match s.seq.state with
    | .waiting => s.setRound .claiming
    | _ => s
  else s

/-- A RUNNING report (R78). -/
def State.reportRunning (s : State) : State :=
  if s.tagCurrent then
    match s.seq.state with
    | .waiting => s.enterRunning
    | .claiming => s.enterRunning
    | _ => s
  else s

/-! ### Requests of the round sequencer (R34, R35, R46, R47) -/

/-- A release request: the standing request is withdrawn, own entries are removed, and a RELEASE is placed when any own-step
frame has been placed for it (R46). -/
def State.releaseRequest (s : State) : State :=
  match s.adm.standing with
  | none => s
  | some st =>
    let s1 := s.onAdm fun a => { a with standing := none, framePlaced := false }
    if s.adm.own = .none then s1
    else
      let s2 := (s1.placeOp (.ownRemove .cip (resourcesOf st.pairs))).onAdm (Admission.enter .none)
      if s.adm.framePlaced then s2.placeOwn (some (.release (resourcesOf st.pairs))) else s2

/-- An admission request arrives: it becomes the standing one, the urgency returns to the base and the aging timer to 0;
where the own step is not NONE the request before it is released first (R28, R35). -/
def State.receiveRequest (s : State) (pairs : List Pair) (tag : Nat) : State :=
  let s1 := if s.adm.own = .none then s else s.releaseRequest
  s1.onAdm fun a =>
    { a with standing := some ⟨pairs, tag⟩, framePlaced := false, urgency := s.baseUrgency, aging := 0 }

/-- The standing request is taken where the own step is NONE and the link is ENGAGED or RETICENT (R35). -/
def State.takeRequest (s : State) : State :=
  match s.adm.standing with
  | none => s
  | some st =>
    if s.adm.own = .none ∧ s.onLine = true then
      (((s.placeOp (.ownInsert .cip st.pairs s.ownKey .waiting)).onAdm (Admission.enter .waiting)).reportWaiting).requestEval
        false
    else s

/-- An ANNOUNCE of the own step with its current key and pairs, as R36, R40 and R47 place them. -/
def State.placeAnnounce (s : State) (st : AnnState) (life : Nat) : State :=
  (s.placeOwn (some (.announce st s.ownKey life s.ownPairs))).onAdm fun a => { a with framePlaced := true }

/-- A chain request: in RUNNING it keeps the grant with the new demands and the key of the base urgency, and places a RUN at
once; in any other state it is taken as an admission request (R47). -/
def State.chainRequest (s : State) (pairs : List Pair) (tag : Nat) : State :=
  if s.adm.own = .running then
    let s1 := s.onAdm fun a => { a with standing := some ⟨pairs, tag⟩, urgency := s.baseUrgency, aging := 0 }
    ((s1.placeOp (.ownUpdate .cip pairs s1.ownKey .running)).placeAnnounce .run s1.settings.leaseLife).reportRunning
  else (s.receiveRequest pairs tag).takeRequest

end Sys2Proof.Machine
end

