-- ==== Sys2Proof/Machine/Rounds.lean ====
section
/-! DEFINITION. The round sequencer's shared operations: attempts (R76, R85, R86), suspension and resume (R88, R90), the end of a round (R92 to R95), the pending set (R71 to R73), stop causes (R79) and the link state (R80). -/

namespace Sys2Proof.Machine

/-! ### Attempts (R76, R85, R86) -/

/-- A new attempt at a step: pointer, tag, repeats, verifier, step timer and phase (R76). -/
def State.openAttempt (s : State) (i : Fin 20) : State :=
  let s1 := s.onSeq fun q => { q with pointer := i, tag := (q.tag + 1) % 256, attemptOpen := true }
  (s1.onSeq fun q =>
      { q with repeats := s1.curStep.repeats, stepTimer := .stopped, pauseTimer := .stopped, phase := .burst }).onVer
    (Verifier.newAttempt s1.settings.sampleMs s1.curStep)

/-- The attempt goes on: RUNNING at once for a step with no claims, else an admission request and WAITING (R76, R77). -/
def State.proceed (s : State) : State :=
  match s.curStep.pairs with
  | [] => s.enterRunning
  | p :: ps => ((s.receiveRequest (p :: ps) s.seq.tag).setRound .waiting).takeRequest

/-- Enter a step as a new attempt; a HOLD step waits for CONFIRM unless the attempt is a resume by CONFIRM (R76, R90). -/
def State.enterStep (s : State) (i : Fin 20) (confirmed : Bool) : State :=
  let s1 := s.openAttempt i
  if s1.curStep.hold && !confirmed then s1.setRound .holdWait else s1.proceed

/-- Enter a step chained: a new attempt that stays RUNNING, and a chain request (R86). -/
def State.enterChained (s : State) (i : Fin 20) : State :=
  let s1 := s.openAttempt i
  ((s1.onSeq fun q => { q with stepTimer := .from 0 }).onVer Verifier.runningInBurst).chainRequest s1.curStep.pairs
    s1.seq.tag

/-- An open attempt ends with an outcome, and its result is handed to the record unit (R85, R98, R117). -/
def State.endAttempt (s : State) (o : AttemptOutcome) : State :=
  if s.seq.attemptOpen then
    ((s.onVer Verifier.attemptEnded).handResult (s.ver.result s.seq.pointer o)).onSeq fun q =>
      { q with attemptOpen := false }
  else s

/-- A release request, where the current step has claims (R85, R88, R94). -/
def State.releaseIfClaims (s : State) : State := if s.curStep.pairs = [] then s else s.releaseRequest

/-! ### The pending set (R71 to R73) -/

/-- The lowest slot with a pending request (R73). -/
def Sequencer.nextPending (q : Sequencer) : Option (Fin 4 × Nat) :=
  allFour.findSome? fun i => (q.pendingSet[i]).map fun e => (i, e)

/-- In IDLE the pending request of the lowest slot is taken and its round begins at step 0 (R73). -/
def State.takePending (s : State) : State :=
  if s.seq.state = .idle then
    match s.seq.nextPending with
    | none => s
    | some (i, e) =>
      let s1 := s.onSeq fun q =>
        { q with
          pendingSet := modAt q.pendingSet i fun _ => none, slot := i, endIndex := e
          roundNumber := (q.roundNumber + 1) % 65536, startUptime := s.loader.uptime
          suspendCount := 0, lastCause := none }
      (s1.beginRecord.onVer Verifier.roundStart).enterStep 0 false
  else s

/-- A request is refused at its arrival (R71). -/
def State.refuses (s : State) (slot : Nat) : Bool :=
  (if h : slot < 4 then
    !s.store.slots[slot].usable || decide (s.seq.state ≠ .idle ∧ s.seq.slot.val = slot)
   else true)
    || s.port.stop.debounced
    || decide (s.loader.phase = .configFault ∨ s.link.state = .barred)

/-- The end index of a request, 20 to 254 taken as 255 (R70). -/
def endIndexOf (n : Nat) : Nat := if n < 20 then n else 255

/-- A round request arrives: it is refused, or joins the pending set keeping the larger end index, and is taken in IDLE (R70 to R73). -/
def State.roundRequest (s : State) (slot endIndex : Nat) : State :=
  if s.refuses slot then s.sticky .requestRefused
  else
    let i : Fin 4 := Fin.ofNat 4 slot
    (s.onSeq fun q =>
        { q with
          pendingSet := modAt q.pendingSet i fun e =>
            match e with
            | none => some (endIndexOf endIndex)
            | some m => some (max m (endIndexOf endIndex)) }).takePending

/-! ### The end of a round (R94, R95) -/

/-- The record unit reports the record taken: the round enters IDLE, and a pending request is taken (R95). -/
def State.recordTaken (s : State) : State :=
  if s.seq.state = .closing ∧ s.log.comp = none then (s.setRound .idle).takePending else s

/-- A round enters CLOSING with an outcome; its record is completed and taken where there is room (R94, R166). -/
def State.closeRound (s : State) (o : RoundOutcome) : State :=
  let s1 := s.releaseIfClaims
  let s2 := (s1.onSeq fun q =>
      { q with stepTimer := .stopped, pauseTimer := .stopped, suspendTimer := .stopped }).onVer Verifier.roundEnded
  (((s2.completeRecord o).setRound .closing).takeRecord).recordTaken

/-- The states from which ABORT and STOP end a round (R92, R93). -/
def RoundState.endable : RoundState → Bool
  | .idle => false
  | .closing => false
  | .holdWait => true
  | .waiting => true
  | .claiming => true
  | .running => true
  | .suspended => true

/-- End an active round early: an open attempt ends CUT (R92, R93). -/
def State.cutRound (s : State) (o : RoundOutcome) : State :=
  if s.seq.state.endable then (s.endAttempt .cut).closeRound o else s

/-! ### Suspension (R88, R90) -/

/-- Outcome of the attempt that a suspension ends (R88). -/
def Cause.outcome : Cause → AttemptOutcome
  | .sensorLost => .failedSensor
  | .stepTime => .failedTime
  | .linkLost => .failedLink
  | .leaseLost => .failedLease
  | .routeTaken => .failedRoute

/-- The open attempt ends with an outcome, and the step timer and the pause timer stop (R79, R88). The phase stays as it was, so a
round suspended in PAUSE shows PAUSE in STATUS until it is resumed. DESIGN CHOICE [38]. -/
def State.haltAttempt (s : State) (o : AttemptOutcome) : State :=
  (s.endAttempt o).onSeq fun q => { q with stepTimer := .stopped, pauseTimer := .stopped }

/-- The round enters SUSPENDED: one more suspension, its cause, the suspend timer from 0 (R88). -/
def State.enterSuspended (s : State) (c : Cause) : State :=
  (s.onSeq fun q =>
      { q with suspendCount := min (q.suspendCount + 1) 255, lastCause := some c, suspendTimer := .from 0 }).setRound
    .suspended

/-- Suspend the round with a cause (R88). -/
def State.suspend (s : State) (c : Cause) : State := (s.haltAttempt c.outcome).releaseIfClaims.enterSuspended c

/-- Resume a suspended round, unless the link state is BARRED (R90). -/
def State.resumeRound (s : State) (confirmed : Bool) : State :=
  if s.seq.state = .suspended ∧ s.link.state ≠ .barred then
    (s.onSeq fun q => { q with suspendTimer := .stopped }).enterStep s.seq.pointer confirmed
  else s

/-! ### Running a step (R82, R84, R85) -/

/-- The index at which the round ends: the recipe's final index, or the requested end index where that is lower (R85). -/
def State.lastIndex (s : State) : Nat := min s.store.slots[s.seq.slot].finalIndex.val s.seq.endIndex

/-- The step at an index of the current round's slot. -/
def State.stepAt (s : State) (i : Fin 20) : Step := s.store.slots[s.seq.slot].steps[i]

/-- An attempt ends DONE: the round ends COMPLETE at the last index, else the next step is entered, chained where its flag is
set and the step just completed ran under a grant (R85). -/
def State.attemptDone (s : State) : State :=
  let s1 := ((s.endAttempt .done).stickyIf s.curStep.mark .stepMark).onSeq fun q => { q with stepTimer := .stopped }
  if s1.seq.pointer.val = s1.lastIndex then s1.closeRound .complete
  else
    let next : Fin 20 := Fin.ofNat 20 (s1.seq.pointer.val + 1)
    if (s1.stepAt next).chain ∧ s1.curStep.pairs ≠ [] then s1.enterChained next
    else s1.releaseIfClaims.enterStep next false

/-- A burst-complete report (R82): a pause, a new burst, or the end of the attempt; discarded outside RUNNING in BURST. -/
def State.burstComplete (s : State) : State :=
  if s.seq.state = .running ∧ s.seq.phase = .burst then
    if 1 < s.seq.repeats then
      let s1 := s.onSeq fun q => { q with repeats := q.repeats - 1 }
      if 0 < s.curStep.pauseTime then
        (s1.onSeq fun q => { q with phase := .pause, pauseTimer := .from (s.curStep.pauseTime * 1000) }).onVer
          Verifier.pauseBegins
      else s1.onVer Verifier.newBurst
    else (s.onVer Verifier.lastRepetition).attemptDone
  else s

/-- A SENSOR_LOST report; discarded outside RUNNING in BURST (R84). -/
def State.sensorLostReport (s : State) : State :=
  if s.seq.state = .running ∧ s.seq.phase = .burst then s.suspend .sensorLost else s

/-! ### Stop causes and link states (R79, R80) -/

/-- A cause for which the admission unit stops a run (R34, R45). -/
inductive StopCause where
  | shed | routeTaken | leaseLost | linkLost
deriving DecidableEq, Repr

/-- What the round sequencer makes of a stop cause (R79): it discards it, returns to WAITING, suspends the round, or ends the
attempt SHED and enters the step again. -/
inductive StopReply where
  | discards
  | waits
  | suspends (c : Cause)
  | again
deriving DecidableEq, Repr

/-- A stop cause of the current attempt is acted on in CLAIMING and RUNNING, and discarded otherwise (R79). -/
def State.stopReply (s : State) (c : StopCause) : StopReply :=
  if s.tagCurrent = true ∧ (s.seq.state = .claiming ∨ s.seq.state = .running) then
    match c with
    | .shed => .again
    | .routeTaken => .suspends .routeTaken
    | .leaseLost => .suspends .leaseLost
    | .linkLost => if s.seq.state = .claiming then .waits else .suspends .linkLost
  else .discards

/-- The state in which an attempt just opened stands: HOLD_WAIT for a HOLD step, RUNNING for a step with no claims, else WAITING
(R76). R79 says that a shed goes to WAITING; for a HOLD step the model follows R76: HOLD_WAIT. DESIGN CHOICE [32]. -/
def State.standAgain (s : State) : State :=
  if s.curStep.hold then s.setRound .holdWait
  else if s.curStep.pairs = [] then s.enterRunning
  else s.setRound .waiting

/-- The round sequencer's own part in its answer to a stop cause (R79, R88): done as the cause is reported, before the admission
unit goes on with the stop (R45). -/
def State.stopReported (s : State) (a : StopReply) : State :=
  match a with
  | .discards => s
  | .waits => s.setRound .waiting
  | .suspends c => (s.haltAttempt c.outcome).enterSuspended c
  | .again => ((s.haltAttempt .shed).openAttempt s.seq.pointer).standAgain

/-- The request that the round sequencer gave in its answer reaches the admission unit, which has stopped the run and is in
NONE: a release request after a suspension, an admission request of the new attempt after a shed (R45, R79, R88). A shed HOLD step
sends none yet and has the old request withdrawn, so that it holds no share of the hall (R77). DESIGN CHOICE [32]. -/
def State.stopAnswered (s : State) (a : StopReply) : State :=
  match a with
  | .discards => s
  | .waits => s
  | .suspends _ => s.releaseIfClaims
  | .again =>
    if s.curStep.hold = true ∨ s.curStep.pairs = [] then s.releaseRequest
    else (s.receiveRequest s.curStep.pairs s.seq.tag).takeRequest

/-- The link state becomes DETACHED (R80). -/
def State.seqDetached (s : State) : State :=
  match s.seq.state with
  | .claiming => s.setRound .waiting
  | .running => if s.curStep.pairs = [] then s else s.suspend .linkLost
  | _ => s

/-- The link state becomes BARRED (R80). -/
def State.seqBarred (s : State) : State :=
  let s1 := s.onSeq fun q => { q with pendingSet := Vector.replicate 4 none }
  match s.seq.state with
  | .holdWait => s1.suspend .linkLost
  | .waiting => s1.suspend .linkLost
  | .claiming => s1.suspend .linkLost
  | .running => s1.suspend .linkLost
  | _ => s1

end Sys2Proof.Machine
end

