-- ==== Sys2Proof/Machine/Control.lean ====
section
/-! DEFINITION. What the admission unit does with outcomes, verdicts, deliveries and link states (R36 to R45, R48 to R50), with its product holds (R52 to R54), and with the results the list controller hands back (R7, R22, R33). -/

namespace Sys2Proof.Machine

/-! ### Claim, wait, yield, run (R36, R39, R40, R41) -/

/-- An own update of the own CIP entries to a state, with the current key and pairs. -/
def State.updateOwn (s : State) (st : EntryState) : State := s.placeOp (.ownUpdate .cip s.ownPairs s.ownKey st)

/-- A WAIT would repeat what peers already hold (R36). -/
def State.waitStands (s : State) : Bool :=
  (match s.adm.last with
    | some (.announce .wait key _ pairs) => decide (key = s.ownKey ∧ pairs = s.ownPairs)
    | _ => false)
  && (match s.tx.own with
    | none => true
    | some (.announce .wait _ _ _) => true
    | _ => false)

/-- PASS in WAITING: the entries become CLAIMING and a CLAIM is placed (R36). -/
def State.claim (s : State) : State :=
  (((s.updateOwn .claiming).placeAnnounce .claim s.settings.lapseLife).onAdm (Admission.enter .claiming)).reportClaiming

/-- A failing outcome in WAITING: a WAIT is placed unless it stands already (R36). -/
def State.stayWaiting (s : State) : State :=
  if s.waitStands then s else s.placeAnnounce .wait s.settings.leaseLife

/-- Yield: the entries return to WAITING and a WAIT supersedes the CLAIM or RUN (R39). -/
def State.yieldStep (s : State) : State :=
  (((s.updateOwn .waiting).placeAnnounce .wait s.settings.leaseLife).onAdm (Admission.enter .waiting)).reportWaiting

/-- The settle evaluation passed: a RUN is placed and the step is RUN-PENDING, reported as CLAIMING (R34, R40). -/
def State.runPending (s : State) : State :=
  ((s.placeAnnounce .run s.settings.leaseLife).onAdm (Admission.enter .runPending)).reportClaiming

/-- The current delivery of the RUN grants the step (R41). -/
def State.grant (s : State) : State :=
  ((s.updateOwn .running).onAdm (Admission.enter .running)).onAdm fun a =>
    { a with refresh := .from 0, guard := .from 0, granting := true }

/-! ### Stopping a run (R45) -/

/-- The own step slot after a stop: emptied on LINK_LOST, else the RELEASE (R45). -/
def stopContent (c : StopCause) (pairs : List Pair) : Option OwnFrame :=
  if c = .linkLost then none else some (.release (resourcesOf pairs))

/-- A run is stopped (R34, R45): the cause is reported to the round sequencer first; then the flag is set, the own remove is
placed, the own step enters NONE and its slot takes the RELEASE or is emptied; then the request the round sequencer gave in
answer arrives. The admission request stands on unless that request withdraws or replaces it. -/
def State.stopRun (s : State) (c : StopCause) : State :=
  let a := s.stopReply c
  let s1 := (s.stopReported a).stickyIf (decide (c = .shed)) .shed
  (((s1.placeOp (.ownRemove .cip (resourcesOf s.ownPairs))).onAdm (Admission.enter .none)).placeOwn
    (stopContent c s.ownPairs)).stopAnswered a

/-- The stop cause of a verdict (R30, R45). -/
def Verdict.cause : Verdict → StopCause
  | .routeTaken => .routeTaken
  | .shed => .shed

/-- A verdict is acted on while the own step is RUNNING (R30). -/
def State.actVerdict (s : State) (v : Option Verdict) : State :=
  match v with
  | some x => if s.adm.own = .running then s.stopRun x.cause else s
  | none => s

/-! ### Results of the list controller (R7, R22, R32, R33) -/

/-- A change notice that comes from the hall, an expiry or an incomplete timer and names a resource of the own step requests
an evaluation (R32). -/
def State.notice (s : State) (touched : List Res) : State :=
  if touched.any fun r => decide (r ∈ resourcesOf s.ownPairs) then s.requestEval false else s

/-- The tests of R30 for a result, against the board as it stands. -/
def State.verdict (s : State) (touched : List Res) : Option Verdict := verdictFor s.settings.capacity s.board touched

/-- The result of an operation from the hall or of an expiry (R7, R22). -/
def State.hallResult (s : State) (touched : List Res) : State :=
  (s.notice touched).actVerdict (s.verdict touched)

/-- The result of an own insert or own remove (R7, R22, R33). -/
def State.ownResult (s : State) (touched : List Res) : State := s.opDone.actVerdict (s.verdict touched)

/-- The result of an own update; the granting one without a verdict reports RUNNING (R41). -/
def State.updateResult (s : State) (st : EntryState) (touched : List Res) : State :=
  let v := s.verdict touched
  let s1 := s.opDone
  if s1.adm.granting = true ∧ st = .running ∧ s1.adm.own = .running then
    match v with
    | some x => s1.stopRun x.cause
    | none => (s1.onAdm fun a => { a with granting := false }).reportRunning
  else s1.actVerdict v

/-- What the admission unit does with an outcome that it acts on (R36, R39, R40). -/
def State.actOutcome (s : State) (o : Fit) (settle : Bool) : State :=
  match s.adm.own with
  | .none => s
  | .running => s
  | .waiting => if o = .pass then s.claim else s.stayWaiting
  | .claiming => if o = .pass then (if settle then s.runPending else s) else s.yieldStep
  | .runPending => if o = .pass then s else s.yieldStep

/-- A wanted evaluation is requested and the mark cleared (R33, R40). -/
def State.requestWanted (s : State) : State :=
  if s.adm.wanted then
    (s.onAdm fun a => { a with wanted := false, wantedSettle := false }).requestEval s.adm.wantedSettle
  else s

/-- An evaluation's outcome arrives: acted on in the stay it was requested in, while evaluation is possible, and never when
EMPTY (R32, R33). -/
def State.outcome (s : State) (o : Fit) : State :=
  let s1 := (s.onAdm fun a => { a with evalReq := none }).opDone
  let s2 :=
    match s.adm.evalReq with
    | some q => if s.canEvaluate && decide (o ≠ Fit.empty ∧ q.stay = s.adm.stay) then s1.actOutcome o q.settle else s1
    | none => s1
  s2.requestWanted

/-! ### Deliveries (R37, R38, R41, R43, R44, R53) -/

/-- A timer that does not run is started from 0. -/
def Timer.startIfStopped (t : Timer) : Timer := if t.on then t else .from 0

/-- The current delivery of the own step slot's content (R37, R38, R41, R43, R44). -/
def State.ownDelivered (s : State) (c : OwnFrame) : State :=
  let s1 := s.onAdm fun a => { a with last := some c }
  match c, s.adm.own with
  | .announce .claim _ _ _, .claiming => s1.onAdm fun a => { a with settle := .from 0, lapse := .from 0 }
  | .announce .run _ _ _, .runPending => s1.grant
  | .announce .run _ _ _, .running => s1.onAdm fun a => { a with guard := .from 0 }
  | .announce .wait _ _ _, .waiting => s1.onAdm fun a => { a with refresh := a.refresh.startIfStopped }
  | _, _ => s1

/-- The current delivery of a product slot's content (R53). -/
def State.productDelivered (s : State) (i : Fin 4) (c : ProdFrame) : State :=
  match c with
  | .announce _ _ =>
    s.onAdm fun a =>
      { a with
        holds := modAt a.holds i fun h => if h.holding then { h with refresh := h.refresh.startIfStopped } else h }
  | .release _ => s

/-! ### Product holds (R52 to R54) -/

/-- The resource a line maps to; a line mapped to an absent resource is treated as mapped to none (R52). -/
def State.lineRes (s : State) (i : Fin 4) : Option Res :=
  match s.settings.prodMap[i] with
  | some r => if s.settings.capacity[r] = 0 then none else some r
  | none => none

/-- The resource whose hold has its slot at a line: the lowest-numbered line mapped to it (R52). -/
def State.holdRes (s : State) (i : Fin 4) : Option Res :=
  match s.lineRes i with
  | some r => if allFour.any fun j => decide (j < i ∧ s.lineRes j = some r) then none else some r
  | none => none

/-- A hold is wanted while any line mapped to its resource is active (R52). -/
def State.holdWanted (s : State) (r : Res) : Bool :=
  allFour.any fun j => decide (s.lineRes j = some r) && (s.port.prod[j]).debounced

/-- The PRODUCT announcement of a hold (R53). -/
def State.placeHold (s : State) (i : Fin 4) (r : Res) : State :=
  s.placeProduct i (some (.announce s.settings.leaseLife r))

/-- A hold becomes HOLDING (R53). -/
def State.beginHold (s : State) (i : Fin 4) (r : Res) : State :=
  ((s.placeOp (.ownInsert .product [⟨r, 255⟩] s.settings.node .held)).onAdm fun a =>
      { a with holds := modAt a.holds i fun _ => ⟨true, .stopped⟩ }).placeHold i r

/-- A hold becomes QUIET while the link is ENGAGED or RETICENT (R54). -/
def State.endHold (s : State) (i : Fin 4) (r : Res) : State :=
  ((s.placeOp (.ownRemove .product [r])).onAdm fun a =>
      { a with holds := modAt a.holds i fun _ => ⟨false, .stopped⟩ }).placeProduct i (some (.release r))

/-- One hold is judged from the product-use lines (R52). -/
def State.judgeHold (s : State) (i : Fin 4) : State :=
  match s.holdRes i with
  | none => s
  | some r =>
    if s.onLine then
      if s.holdWanted r && !(s.adm.holds[i]).holding then s.beginHold i r
      else if !s.holdWanted r && (s.adm.holds[i]).holding then s.endHold i r
      else s
    else s

/-- Every hold is judged (R52), in ascending line, which orders the own operations that several place. DESIGN CHOICE [34]. -/
def State.judgeHolds (s : State) : State := allFour.foldl State.judgeHold s

/-- A hold in HOLDING goes QUIET at detachment: own remove, nothing placed (R49, R54). -/
def State.dropHold (s : State) (i : Fin 4) : State :=
  if (s.adm.holds[i]).holding then
    (match s.holdRes i with
      | some r => s.placeOp (.ownRemove .product [r])
      | none => s).onAdm fun a => { a with holds := modAt a.holds i fun _ => ⟨false, .stopped⟩ }
  else s

/-! ### Link states (R48 to R50) -/

/-- Entry to RETICENT: a step in CLAIMING or RUN-PENDING yields (R48). -/
def State.admReticent (s : State) : State :=
  if s.adm.own = .claiming ∨ s.adm.own = .runPending then s.yieldStep else s

/-- Return to ENGAGED: a step in WAITING has an evaluation requested (R48). -/
def State.admEngaged (s : State) : State := if s.adm.own = .waiting then s.requestEval false else s

/-- Entry to DETACHED or BARRED: the own step and the holds let go, the class-A slots are emptied, the learning timer stops (R49). The
own step's operation is placed before those of the holds, these in ascending line. DESIGN CHOICE [34]. -/
def State.admDetached (s : State) : State :=
  let s1 :=
    match s.adm.own with
    | .running => s.stopRun .linkLost
    | .none => s
    | _ => (s.placeOp (.ownRemove .cip (resourcesOf s.ownPairs))).onAdm (Admission.enter .none)
  let s2 := (allFour.foldl State.dropHold s1).placeOwn none
  (allFour.foldl (fun s i => s.placeProduct i none) s2).onAdm fun a => { a with learning := .stopped }

/-- Rejoin: the admission unit's reset state, LEARNING begun; the urgency, the aging timer and the standing request are kept (R50),
this last with the mark that a frame has been placed for it (R46). -/
def Admission.rejoin (a : Admission) : Admission :=
  { Admission.start with
    learning := .from 0, standing := a.standing, framePlaced := a.framePlaced, urgency := a.urgency, aging := a.aging
    stay := a.stay + 1 }

end Sys2Proof.Machine
end

