-- ==== Sys2Proof/Machine/HallLink.lean ====
section
/-! DEFINITION. The hall link controller and receive handling: error counts and link states (R141 to R148), the acknowledge answer and delivery (R138, R139), handing on (R140, R150 to R154), and the outcomes of own copies (R160, R169, R174). -/

namespace Sys2Proof.Machine

/-! ### Counts and link states (R141 to R148) -/

/-- Entry to DETACHED (R145): quiet timer from 0; the round sequencer and the admission unit act (R80, R49). -/
def State.enterDetached (s : State) : State :=
  ((s.onLink fun l => { l with state := .detached, quiet := .from 0 }).seqDetached).admDetached

/-- Entry to BARRED (R148): quiet timer and hold-back stopped, nothing received from then on. -/
def State.enterBarred (s : State) : State :=
  (((s.onLink fun l => { l with state := .barred, quiet := .stopped, role := .none }).onTx fun t =>
      { t with holdBack := .stopped }).seqBarred).admDetached

/-- Entry to RETICENT (R143, R48). -/
def State.enterReticent (s : State) : State :=
  ((s.onLink fun l => { l with state := .reticent }).sticky .reticentEntered).admReticent

/-- Return to ENGAGED (R143, R48). -/
def State.returnEngaged (s : State) : State := (s.onLink fun l => { l with state := .engaged }).admEngaged

/-- The link state is judged against the counts, in the order of R143. -/
def State.judgeLink (s : State) : State :=
  if s.onLine = true ∧ 192 ≤ s.link.tec then s.enterDetached
  else if s.link.state = .engaged ∧ (96 ≤ s.link.tec ∨ 96 ≤ s.link.recCount) then s.enterReticent
  else if s.link.state = .reticent ∧ s.link.tec < 80 ∧ s.link.recCount < 80 then s.returnEngaged
  else s

/-- A count moves, and each move judges the link state (R143). -/
def State.moveCounts (s : State) (tec recCount : Nat) : State :=
  if tec = s.link.tec ∧ recCount = s.link.recCount then s
  else (s.onLink fun l => { l with tec := tec, recCount := recCount }).judgeLink

/-- A count rises, stopping at 255 (R132). -/
def raiseCount (n by_ : Nat) : Nat := min (n + by_) 255

/-- TEC rises by 4 (R141). -/
def State.tecUp (s : State) : State := s.moveCounts (raiseCount s.link.tec 4) s.link.recCount
/-- TEC falls by 1 (R141). -/
def State.tecDown (s : State) : State := s.moveCounts (s.link.tec - 1) s.link.recCount
/-- REC rises by 1 (R142). -/
def State.recUp (s : State) : State := s.moveCounts s.link.tec (raiseCount s.link.recCount 1)
/-- REC falls by 1 (R142). -/
def State.recDown (s : State) : State := s.moveCounts s.link.tec (s.link.recCount - 1)

/-- The frame on the medium is over for this node: it has no part in it any more, and the medium is not yet idle (R133, R134). -/
def State.frameOver (s : State) (a : Option Answer) : State :=
  s.onLink fun l => { l with role := .none, copy := none, answer := a, holdOffMoved := false }

/-- The receiver's check of the frame on the medium failed, the answer being given (R142, R145). -/
def State.checkFailed (s : State) (a : Option Answer) : State :=
  let s1 := s.frameOver a
  match s.link.state with
  | .engaged => s1.recUp
  | .reticent => s1.recUp
  | .detached => s1.onLink fun l => { l with quiet := .from 0 }
  | .barred => s1

/-- The answer of a receiver whose check failed: REJECT in ENGAGED and RETICENT, none otherwise (R138). -/
def State.rejectAnswer (s : State) : Option Answer := if s.onLine then some .reject else none

/-! ### Answer and delivery (R138, R139) -/

/-- A frame whose content this node must apply, by kind (R138). -/
def State.mustApply (s : State) (kind : Nat) (f : RxFrame) : Bool :=
  decide (kind ≤ 3) || (decide (kind = 4) && commandAddressed s.settings.node s.settings.groups f)

/-- The hold-off condition at the moment of answering: before hold-off last moved, where the frame says so and it has moved
since the frame started (R9, R138). -/
def State.holdOffAtAnswer (s : State) (early : Bool) : Bool :=
  if early && s.link.holdOffMoved then !s.updates.holdOff else s.updates.holdOff

/-- The acknowledge slot this node drives for a frame with a good check (R138). -/
def State.answerTo (s : State) (kind : Nat) (f : RxFrame) : Option Answer :=
  if s.onLine then
    if s.holdOffAtAnswer f.early && s.mustApply kind f then some .hold else some .accept
  else none

/-- The slots seen: those the other stations drive, with this node's (R138). -/
def slotsSeen (others : AckSlots) (a : Option Answer) : AckSlots :=
  ⟨others.accept || decide (a = some .accept), others.reject || decide (a = some .reject), others.hold || decide (a = some .hold)⟩

/-- A frame is delivered: ACCEPT seen, neither REJECT nor HOLD seen (R139). -/
def deliveredBy (k : AckSlots) : Bool := k.accept && !k.reject && !k.hold

/-! ### Receive handling (R149 to R154) -/

/-- A command of a delivered COMMAND reaches its block (R153). -/
def State.command (s : State) (c : Asked) : State :=
  match c with
  | .request slot endIndex => s.roundRequest slot endIndex
  | .abort => s.cutRound .aborted
  | .resume => s.resumeRound false
  | .report => s.makeStatus

/-- Place an operation, where the frame was well formed. -/
def State.enqueueIf (s : State) (op : Option Op) : State :=
  match op with
  | some o => s.enqueue o
  | none => s

/-- A delivered frame is passed on as one operation, one command, or nothing, by kind (R149 to R154). -/
def State.handOn (s : State) (kind : Nat) (f : RxFrame) : State :=
  match kind with
  | 0 => s.enqueueIf ((readInhibitSet f).map .inhibit)
  | 1 => s.enqueueIf ((readInhibitSet f).map .clear)
  | 2 => s.enqueueIf (readRelease f)
  | 3 => s.enqueueIf ((readAnnounce f).map .announce)
  | 4 =>
    match readCommand s.settings.node s.settings.groups f with
    | some c => s.command c
    | none => s
  | _ => s

/-- A delivered frame with a good check at its end (R140, R142, R147): a duplicate number bars the node; in ENGAGED and
RETICENT REC falls and the frame is handed on; in DETACHED nothing is. -/
def State.deliveredFrame (s : State) (kind : Nat) (f : RxFrame) : State :=
  if senderNumber kind f = some s.settings.node then s.enterBarred
  else if s.onLine then
    let s1 := s.recDown
    if s1.onLine then s1.handOn kind f else s1
  else s

/-- A whole frame of another station as this node receives it: check, answer, delivery, end (R137 to R140). A node that is no
receiver of the frame on the medium takes nothing from it. -/
def State.receiveFrame (s : State) (kind : Nat) (f : RxFrame) : State :=
  if s.isRunning = true ∧ s.link.role = .receiver then
    if checkGood kind f then
      let a := s.answerTo kind f
      let s1 := s.frameOver a
      if deliveredBy (slotsSeen f.others a) then s1.deliveredFrame kind f else s1
    else s.checkFailed s.rejectAnswer
  else s

/-! ### Outcomes of own copies (R140, R160) -/

/-- The outcome of an own copy whose end was reached (R140). -/
inductive CopyOutcome where
  | delivered | rejected | unanswered | held
deriving DecidableEq, Repr

/-- The outcome from the slots seen (R140). -/
def copyOutcome (k : AckSlots) : CopyOutcome :=
  if k.reject then .rejected
  else if k.hold then .held
  else if k.accept then .delivered
  else .unanswered

/-- The turn count rises at each DELIVERED outcome of a copy of class B or C (R159). -/
def Selector.countTurn (t : Selector) (slot : SlotId) : Selector :=
  match slot with
  | .status => { t with turnCount := t.turnCount + 1 }
  | .stream => { t with turnCount := t.turnCount + 1 }
  | .own => t
  | .product _ => t

/-- The current delivery of a fragment advances the head record, or takes it out of the queue after its last; a waiting record
is then taken (R168, R169). -/
def State.fragmentDelivered (s : State) : State :=
  match s.log.queue with
  | [] => s
  | r :: _ =>
    if s.log.nextFragment + 1 < r.fragmentCount then
      s.onLog fun l => { l with nextFragment := l.nextFragment + 1 }
    else ((s.onLog Log.dropHead).takeRecord).recordTaken

/-- A current delivery empties a class-A or status slot and is handed on (R160). -/
def State.currentDelivery (s : State) (slot : SlotId) : State :=
  match slot with
  | .own =>
    match s.tx.own with
    | some c => (s.onTx fun t => { t with own := none }).ownDelivered c
    | none => s
  | .product i =>
    match s.tx.product[i] with
    | some c => (s.onTx fun t => { t with product := modAt t.product i fun _ => none }).productDelivered i c
    | none => s
  | .status => (s.onTx fun t => { t with status := none, statusSuspend := none }).onLog Log.statusDelivered
  | .stream => s.fragmentDelivered

/-- The outcome is handed to the selector (R160): the copy on the medium returns to none, and a current delivery is handed on. -/
def State.handOutcome (s : State) (o : CopyOutcome) : State :=
  match s.tx.copyFrom with
  | none => s
  | some slot =>
    let s1 := s.onTx fun t => { t with copyFrom := none }
    match o with
    | .delivered =>
      let s2 := s1.onTx fun t => t.countTurn slot
      if s.tx.marks.get slot then s2 else s2.currentDelivery slot
    | .held => s1.onTx fun t => { t with holdBack := .from 0 }
    | .rejected => s1
    | .unanswered => s1

/-- TEC moves at the end of an own copy, by the table of R140 (R141). -/
def State.tecMove (s : State) (o : CopyOutcome) : State :=
  match o with
  | .delivered => s.tecDown
  | .rejected => s.tecUp
  | .unanswered => s.tecUp
  | .held => s

end Sys2Proof.Machine
end

