-- ==== Sys2Proof/Machine/StartUp.lean ====
section
/-! DEFINITION. The commands of reset, the configuration loader and the uptime counter (R127, R175 to R182). -/

namespace Sys2Proof.Machine

/-- Every command answers a next state: its effect, then what is offered and driven (R157, R128, R130). -/
def done (s : State) : Host.Outcome State Fault Refusal := .next s.finish

/-- An input in reset: its level is the pin's, its debouncer does not run (R119, R125). The manual gives its debounced state from
start-up completion on; before that it stands inactive. DESIGN CHOICE [39]. -/
def Line.inReset (l : Line) : Line := ⟨l.level, false, .stopped⟩

/-- RESET as power-up takes it: debounced active, its stability timer running while the pin reads inactive (R127). -/
def Line.resetAtPowerUp (l : Line) : Line := ⟨l.level, true, if l.level then .stopped else .from 0⟩

/-- Every block in its reset condition (R127, R175). The pins keep their levels and the queue of commands stays. -/
def State.held (s : State) (reset : Line) : State :=
  { State.reset with
    pending := s.pending
    port :=
      { Port.start with
        req := mapAll s.port.req Line.inReset, confirm := s.port.confirm.inReset, stop := s.port.stop.inReset
        prod := mapAll s.port.prod Line.inReset, reset := reset } }

/-- A line takes its level as its debounced state (R125). -/
def Line.settled (l : Line) : Line := ⟨l.level, l.level, .stopped⟩

/-- POWER_UP (R127, R175): the part is held as if RESET were active. -/
def execPowerUp (s : State) : Host.Outcome State Fault Refusal :=
  done (s.held s.port.reset.resetAtPowerUp)

/-- RESET_RISING_EDGE (R127, R175): from any state of the part, once the stability timer runs for a rising change. -/
def execResetRisingEdge (s : State) : Host.Outcome State Fault Refusal :=
  done (if s.port.reset.timer.on = true ∧ s.port.reset.level = true then s.held s.port.reset.settled else s)

/-- RESET_FALLING_EDGE (R127, R175, R176): the loader enters READING. -/
def execResetFallingEdge (s : State) : Host.Outcome State Fault Refusal :=
  done (if s.port.reset.timer.on = true ∧ s.port.reset.level = false ∧ s.loader.phase = .held then
      (s.onPort fun p => { p with reset := p.reset.settled }).onLoader fun l => { l with phase := .reading }
    else s)

/-- IMAGE_READ_END (R176, R177, R180): mark and length, then the check, then the node number. -/
def execImageReadEnd (bytes : List Byte) (s : State) : Host.Outcome State Fault Refusal :=
  done (if s.loader.phase = .reading then
      let j := judgeImage bytes
      s.onLoader fun l =>
        if j.2 then { l with phase := .validating, check := j.1, image := bytes }
        else { l with phase := .configFault, check := j.1, image := [] }
    else s)

/-- The field port at start-up completion (R119, R120, R125): debounced states taken from the lines, first request one period later. -/
def Port.started (p : Port) (sampleMs : Nat) : Port :=
  { Port.start with
    samplePeriod := .from sampleMs, req := mapAll p.req Line.settled, confirm := p.confirm.settled
    stop := p.stop.settled, prod := mapAll p.prod Line.settled, reset := p.reset }

/-- The record unit at start-up completion: the flags of validation set, their renewal marks clear (R163, R173). -/
def startedLog (d : Loaded) : Log :=
  let l0 := if d.clamped then Log.start.setFlag .clamped else Log.start
  let l1 := if d.unusable then l0.setFlag .recipeUnusable else l0
  let l2 := if d.chainIgnored then l1.setFlag .chainIgnored else l1
  { l2 with renewal := 0, period := .from d.settings.statusMs }

/-- Every block in its start-up state (R181), before the holds are judged. -/
def State.started (s : State) (d : Loaded) : State :=
  { State.reset with
    loader := { Loader.start with phase := .running, check := s.loader.check }
    settings := d.settings, store := d.store, port := s.port.started d.settings.sampleMs
    adm := { Admission.start with learning := .from 0 }, log := startedLog d, pending := s.pending }

/-- START_UP_COMPLETE (R63, R179, R181): settings clamped, recipes validated, every block in its start-up state together, and
the product holds judged from the lines (R51, R52). -/
def execStartUpComplete (s : State) : Host.Outcome State Fault Refusal :=
  done (if s.loader.phase = .validating then (s.started (loadImage s.loader.image)).judgeHolds else s)

/-- UPTIME_TICK (R182): one second more, wrapping past 2^32 − 1. -/
def execUptimeTick (s : State) : Host.Outcome State Fault Refusal :=
  done (if s.isRunning then s.onLoader fun l => { l with uptime := (l.uptime + 1) % 2 ^ 32, uptimeMs := 0 } else s)

end Sys2Proof.Machine
end

