-- ==== Sys2Proof/Machine/AdmissionTimers.lean ====
section
/-! DEFINITION. The commands of the admission unit's timers (R28, R31, R40, R42 to R44, R53). Each acts while its timer runs, aging and guard only at their limits [3]. -/

namespace Sys2Proof.Machine

/-- The aging timer accumulates: the own step WAITING, the node ACTIVE, the link ENGAGED or RETICENT (R28). -/
def State.agingRuns (s : State) : Bool :=
  decide (s.adm.own = .waiting ∧ s.adm.state = .active) && s.onLine

/-- The aging timer accumulates and has reached the aging interval (R28). -/
def State.agingDue (s : State) : Bool := s.agingRuns && decide (s.settings.agingMs ≤ s.adm.aging)

/-- One step of aging below urgency 62 (R28): new key to the board, a WAIT where one has been delivered in this stay, an
evaluation. A WAIT has been delivered in this stay exactly while the refresh timer runs (R43). -/
def State.ageStep (s : State) : State :=
  let s1 := (s.onAdm fun a => { a with urgency := a.urgency + 1 }).updateOwn .waiting
  (if s.adm.refresh.on then s1.placeAnnounce .wait s1.settings.leaseLife else s1).requestEval false

/-- AGING_EXPIRY (R28), at the limit: a new attempt taken first clears the timer. -/
def execAgingExpiry (s : State) : Host.Outcome State Fault Refusal :=
  done (if s.agingDue then
      let s1 := s.onAdm fun a => { a with aging := 0 }
      if s1.adm.urgency < 62 then s1.ageStep else s1
    else s)

/-- LEARNING_EXPIRY (R31): the admission state becomes ACTIVE; a step WAITING in ENGAGED has an evaluation requested. -/
def execLearningExpiry (s : State) : Host.Outcome State Fault Refusal :=
  done (if s.adm.learning.on then
      (s.onAdm fun a => { a with state := .active, learning := .stopped }).admEngaged
    else s)

/-- SETTLE_EXPIRY (R40): the settle evaluation is requested, or the step yields where evaluation is not possible. -/
def execSettleExpiry (s : State) : Host.Outcome State Fault Refusal :=
  done (if s.adm.settle.on = true ∧ s.adm.own = .claiming then
      let s1 := s.onAdm fun a => { a with settle := .stopped }
      if s1.canEvaluate then s1.requestEval true else s1.yieldStep
    else s)

/-- The lapse in RUN-PENDING: the RUN is withdrawn and the step returns to WAITING (R42). -/
def State.lapseRunPending (s : State) : State :=
  (((s.placeOwn none).updateOwn .waiting).onAdm (Admission.enter .waiting)).reportWaiting

/-- LAPSE_EXPIRY (R42): CLAIM_LAPSED, the return to WAITING, and an evaluation (R32). -/
def execLapseExpiry (s : State) : Host.Outcome State Fault Refusal :=
  done (if s.adm.lapse.on then
      match s.adm.own with
      | .runPending => (s.sticky .claimLapsed).lapseRunPending.requestEval false
      | .claiming => (s.sticky .claimLapsed).yieldStep.requestEval false
      | _ => s
    else s)

/-- REFRESH_EXPIRY (R43): the timer restarts and the current WAIT or RUN is placed again. -/
def execRefreshExpiry (s : State) : Host.Outcome State Fault Refusal :=
  done (if s.adm.refresh.on then
      let s1 := s.onAdm fun a => { a with refresh := .from 0 }
      match s.adm.own with
      | .waiting => s1.placeAnnounce .wait s.settings.leaseLife
      | .running => s1.placeAnnounce .run s.settings.leaseLife
      | _ => s
    else s)

/-- GUARD_EXPIRY (R44), at the limit: the run is lost. A delivery taken first has restarted the guard, and the run continues. -/
def execGuardExpiry (s : State) : Host.Outcome State Fault Refusal :=
  done (if s.adm.guard.due s.settings.guardMs = true ∧ s.adm.own = .running then s.stopRun .leaseLost else s)

/-- PRODUCT_REFRESH_EXPIRY (R53): the timer restarts and the PRODUCT announcement is placed again. -/
def execProductRefreshExpiry (line : Fin 4) (s : State) : Host.Outcome State Fault Refusal :=
  done (if (s.adm.holds[line]).holding && (s.adm.holds[line]).refresh.on then
      match s.holdRes line with
      | some r => (s.onAdm fun a => { a with holds := modAt a.holds line fun h => { h with refresh := .from 0 } }).placeHold line r
      | none => s
    else s)

end Sys2Proof.Machine
end

