-- ==== Sys2Proof/Machine/Inputs.lean ====
section
/-! DEFINITION. The commands of the discrete inputs (R125, R126) and what their changes do (R52, R70, R77, R90, R93). -/

namespace Sys2Proof.Machine

/-- A change of a line's level: the stability timer starts from 0 where the level departs from the debounced state, and stops at
0 where it returns; where the debouncer does not run the level alone changes (R125). -/
def Line.change (runs active : Bool) (l : Line) : Line :=
  if l.level = active then l
  else ⟨active, l.debounced, if runs = true ∧ active ≠ l.debounced then .from 0 else .stopped⟩

/-- The stability timer runs for a rising change. -/
def Line.rising (l : Line) : Bool := l.timer.on && l.level

/-- INPUT_LEVEL_CHANGE (R125, R127): RESET is debounced from power-up, the other inputs from start-up completion. -/
def execInputLevelChange (input : Input) (active : Bool) (s : State) : Host.Outcome State Fault Refusal :=
  done (s.onPort fun p =>
    match input with
    | .req i => { p with req := modAt p.req i (Line.change s.isRunning active) }
    | .confirm => { p with confirm := p.confirm.change s.isRunning active }
    | .stop => { p with stop := p.stop.change s.isRunning active }
    | .prod i => { p with prod := modAt p.prod i (Line.change s.isRunning active) }
    | .reset => { p with reset := p.reset.change true active })

/-- REQ_RISING_EDGE (R70, R126): a request for the line's slot with end index 255. -/
def execReqRisingEdge (line : Fin 4) (s : State) : Host.Outcome State Fault Refusal :=
  done (if s.isRunning && (s.port.req[line]).rising then
      (s.onPort fun p => { p with req := modAt p.req line Line.settled }).roundRequest line.val 255
    else s)

/-- A rising edge of CONFIRM confirms a HOLD step or resumes a suspended round, and is ignored elsewhere (R77, R90). -/
def State.confirmEdge (s : State) : State :=
  match s.seq.state with
  | .holdWait => s.proceed
  | .suspended => s.resumeRound true
  | _ => s

/-- CONFIRM_RISING_EDGE (R77, R90, R126). -/
def execConfirmRisingEdge (s : State) : Host.Outcome State Fault Refusal :=
  done (if s.isRunning && s.port.confirm.rising then
      (s.onPort fun p => { p with confirm := p.confirm.settled }).confirmEdge
    else s)

/-- STOP becomes active: the pending set is emptied, and an active round ends STOPPED (R93). -/
def State.stopActive (s : State) : State :=
  ((s.onSeq fun q => { q with pendingSet := Vector.replicate 4 none }).stickyIf
    (allFour.any fun i => (s.seq.pendingSet[i]).isSome) .requestRefused).cutRound .stopped

/-- STOP_CHANGE (R93, R126): both edges change the level; becoming active acts at once. -/
def execStopChange (s : State) : Host.Outcome State Fault Refusal :=
  done (if s.isRunning && s.port.stop.timer.on then
      let s1 := s.onPort fun p => { p with stop := p.stop.settled }
      if s.port.stop.level then s1.stopActive else s1
    else s)

/-- PROD_LINE_CHANGE (R52, R126): each hold is judged from the changed lines. -/
def execProdLineChange (line : Fin 4) (s : State) : Host.Outcome State Fault Refusal :=
  done (if s.isRunning && (s.port.prod[line]).timer.on then
      (s.onPort fun p => { p with prod := modAt p.prod line Line.settled }).judgeHolds
    else s)

end Sys2Proof.Machine
end

