-- ==== Sys2Proof/Machine/Clock.lean ====
section
/-! DEFINITION. Time: what passes in one millisecond (`tick`), and which command falls due of itself (`dueCommand`): expiries, the operation at the head of the update queue, and debounced changes. Used where no command waits. DESIGN CHOICE [2]. -/

namespace Sys2Proof.Machine

/-! ### One millisecond -/

/-- A running timer counts up, stopping at its limit. -/
def Timer.up (limit : Nat) (t : Timer) : Timer := if t.on then ⟨true, min (t.ms + 1) limit⟩ else t

/-- A running timer that holds the time left counts down, stopping at 0. -/
def Timer.down (t : Timer) : Timer := if t.on then ⟨true, t.ms - 1⟩ else t

/-- A running timer that counts down has reached 0. -/
def Timer.out (t : Timer) : Bool := t.on && decide (t.ms = 0)

/-- The stability timer of a line (R125). -/
def Line.tick (l : Line) : Line := { l with timer := l.timer.up Config.stabilityTime }

/-- A line whose falling edge is handed nowhere (R126) takes it here, since it has no row [4]. -/
def Line.tickRising (l : Line) : Line :=
  let l1 := l.tick
  if l1.timer.due Config.stabilityTime && !l1.level then l1.settled else l1

/-- The field port in RUNNING (R120, R121, R125). -/
def Port.tick (p : Port) : Port :=
  { p with
    samplePeriod := p.samplePeriod.down, replyTimer := p.replyTimer.up Config.replyLimit
    req := mapAll p.req Line.tickRising, confirm := p.confirm.tickRising, stop := p.stop.tick
    prod := mapAll p.prod Line.tick, reset := p.reset.tick }

/-- A life counts down by one unit every 50 ms from its last setting, and stands at 0 when due (R6). DESIGN CHOICE [15]. -/
def Life.tick (l : Life) : Life :=
  if l.units = 0 then l
  else if l.ms + 1 < 50 then { l with ms := l.ms + 1 }
  else ⟨l.units - 1, 0⟩

/-- Lives and incomplete timers (R6, R20, R24). -/
def Board.tick (b : Board) : Board :=
  { b with
    lists := mapAll b.lists fun l => l.map fun e => { e with life := e.life.map Life.tick }
    incompleteMs := Vector.ofFn fun r : Res =>
      if b.incomplete[r] && b.peerRoom then min (b.incompleteMs[r] + 1) Config.incompleteLimit else 0 }

/-- The admission unit's timers (R28, R31, R38, R42 to R44, R53). -/
def Admission.tick (c : Settings) (aging : Bool) (a : Admission) : Admission :=
  { a with
    learning := a.learning.up Config.learningTime, settle := a.settle.up c.settleMs, lapse := a.lapse.up c.lapseMs
    refresh := a.refresh.up c.refreshMs, guard := a.guard.up c.guardMs
    aging := if aging then min (a.aging + 1) c.agingMs else a.aging
    holds := mapAll a.holds fun h => { h with refresh := h.refresh.up c.refreshMs } }

/-- The round sequencer's timers (R81, R82, R91). -/
def Sequencer.tick (limit suspend : Nat) (q : Sequencer) : Sequencer :=
  { q with
    stepTimer := q.stepTimer.up limit, pauseTimer := q.pauseTimer.down, suspendTimer := q.suspendTimer.up suspend }

/-- The wait time in STANDBY, the run time in the running modes (R115). -/
def Verifier.tick (v : Verifier) : Verifier :=
  if v.mode.isRunning then { v with runMs := min (v.runMs + 1) (Config.attemptTimeMax * 1000) }
  else if v.mode = .standby then { v with waitMs := min (v.waitMs + 1) (Config.attemptTimeMax * 1000) }
  else v

/-- One millisecond in RUNNING: every running timer moves. -/
def State.tickRunning (s : State) : State :=
  { s with
    loader := { s.loader with uptimeMs := min (s.loader.uptimeMs + 1) 1000 }
    board := s.board.tick
    adm := s.adm.tick s.settings s.agingRuns
    seq := s.seq.tick (s.curStep.limit * 1000) s.settings.suspendMs
    ver := s.ver.tick
    port := s.port.tick
    link := { s.link with quiet := s.link.quiet.up Config.rejoinQuiet }
    tx := { s.tx with holdBack := s.tx.holdBack.up Config.holdBack }
    log := { s.log with period := s.log.period.down } }

/-- One millisecond: before start-up completes and in CONFIG_FAULT the RESET debouncer alone runs (R119, R127, R180). -/
def State.tick (s : State) : State :=
  if s.isRunning then s.tickRunning else s.onPort fun p => { p with reset := p.reset.tick }

/-! ### What falls due of itself -/

/-- The command that takes an operation from the head of the update queue (R8). -/
def Op.instr : Op → Instr
  | .announce a => if a.role = .cip then .applyAnnouncementCip else .applyAnnouncementProduct
  | .release _ _ _ => .applyRelease
  | .inhibit _ => .inhibitOperation
  | .clear _ => .clearOperation
  | .ownInsert _ _ _ _ => .ownInsert
  | .ownUpdate _ _ _ _ => .ownUpdate
  | .ownRemove _ _ => .ownRemove
  | .evaluate => .evaluate

/-- The first due peer entry, by resource and then list order (R15). -/
def Board.dueEntry (b : Board) : Option (Fin 64) :=
  allRes.findSome? fun r =>
    (b.lists[r].find? Entry.due).map (·.num)

/-- The stability timer of a line has reached 50 ms (R125). -/
def Line.due (l : Line) : Bool := l.timer.due Config.stabilityTime

/-- A command guarded by its condition. -/
def dueIf (c : Bool) (i : Instr) : Option Instr := if c then some i else none

/-- The due debounced change of RESET (R127). -/
def State.dueReset (s : State) : Option Instr :=
  (dueIf (s.port.reset.due && s.port.reset.level) .resetRisingEdge).or
    (dueIf (s.port.reset.due && !s.port.reset.level && decide (s.loader.phase = .held)) .resetFallingEdge)

/-- The due changes of the other inputs (R125, R126). -/
def State.dueInput (s : State) : Option Instr :=
  ((dueIf s.port.stop.due .stopChange).or
    (allFour.findSome? fun i => dueIf ((s.port.req[i]).due && (s.port.req[i]).level) (.reqRisingEdge i))).or
  ((dueIf (s.port.confirm.due && s.port.confirm.level) .confirmRisingEdge).or
    (allFour.findSome? fun i => dueIf (s.port.prod[i]).due (.prodLineChange i)))

/-- The due expiries of the sample exchange (R120, R122). -/
def State.dueSample (s : State) : Option Instr :=
  (dueIf (decide (s.port.exchange = .awaiting) && s.port.replyTimer.due Config.replyLimit) .replyTimeout).or
    (dueIf (decide (s.port.exchange = .idle) && s.port.samplePeriod.out) .samplePeriodExpiry)

/-- The due incomplete timers (R20). -/
def State.dueIncomplete (s : State) : Option Instr :=
  allRes.findSome? fun r =>
    dueIf (s.board.incompleteDue r) (.incompleteTimerExpiry r)

/-- The due timers of the admission unit (R28, R31, R40, R42 to R44, R53). -/
def State.dueAdmission (s : State) : Option Instr :=
  let a := s.adm
  let c := s.settings
  ((dueIf (a.learning.due Config.learningTime) .learningExpiry).or
    (dueIf (a.settle.due c.settleMs && decide (a.own = .claiming)) .settleExpiry)).or
  (((dueIf (a.lapse.due c.lapseMs && decide (a.own = .claiming ∨ a.own = .runPending)) .lapseExpiry).or
    (dueIf (a.guard.due c.guardMs && decide (a.own = .running)) .guardExpiry)).or
  (((dueIf (a.refresh.due c.refreshMs && decide (a.own = .waiting ∨ a.own = .running)) .refreshExpiry).or
    (dueIf s.agingDue .agingExpiry)).or
  (allFour.findSome? fun i =>
    dueIf ((a.holds[i]).holding && (a.holds[i]).refresh.due c.refreshMs && (s.holdRes i).isSome) (.productRefreshExpiry i))))

/-- The due timers of the round sequencer (R81, R82, R91). -/
def State.dueRound (s : State) : Option Instr :=
  (dueIf (s.seq.stepTimer.due (s.curStep.limit * 1000) && decide (s.seq.state = .running)) .stepTimerExpiry).or
  ((dueIf (s.seq.pauseTimer.out && decide (s.seq.state = .running ∧ s.seq.phase = .pause)) .pauseTimerExpiry).or
    (dueIf (s.seq.suspendTimer.due s.settings.suspendMs && decide (s.seq.state = .suspended)) .suspendTimerExpiry))

/-- The due timers of the selector, the link controller, the record unit and the uptime counter (R146, R161, R172, R182). -/
def State.dueLink (s : State) : Option Instr :=
  ((dueIf (s.tx.holdBack.due Config.holdBack) .holdBackExpiry).or
    (dueIf (s.link.quiet.due Config.rejoinQuiet && decide (s.link.state = .detached)) .rejoin)).or
  ((dueIf s.log.period.out .statusPeriodExpiry).or (dueIf (decide (1000 ≤ s.loader.uptimeMs)) .uptimeTick))

/-- The command that falls due of itself, in a fixed order: a due entry before the next operation (R15), operations before
time-outs. Of those that fall together any may come first; the order is the model's. DESIGN CHOICE [2]. -/
def State.dueCommand (s : State) : Option Instr :=
  s.dueReset.or
    (if s.isRunning then
      ((s.board.dueEntry.map Instr.entryExpiry).or (s.updates.ops.head?.map Op.instr)).or
        ((s.dueInput.or s.dueSample).or ((s.dueIncomplete.or s.dueAdmission).or (s.dueRound.or s.dueLink)))
    else none)

end Sys2Proof.Machine
end

