-- ==== Sys2Proof/Machine/Frames.lean ====
section
/-! DEFINITION. The commands of received frames, one for each kind and COMMAND code (R137 to R142, R147, R149 to R154). -/

namespace Sys2Proof.Machine

/-- ANNOUNCE (R150). -/
def execAnnounce (frame : RxFrame) (s : State) : Host.Outcome State Fault Refusal := done (s.receiveFrame 3 frame)

/-- RELEASE (R151). -/
def execRelease (frame : RxFrame) (s : State) : Host.Outcome State Fault Refusal := done (s.receiveFrame 2 frame)

/-- INHIBIT (R152). -/
def execInhibit (frame : RxFrame) (s : State) : Host.Outcome State Fault Refusal := done (s.receiveFrame 0 frame)

/-- CLEAR (R152). -/
def execClear (frame : RxFrame) (s : State) : Host.Outcome State Fault Refusal := done (s.receiveFrame 1 frame)

/-- REQUEST: a COMMAND of code 0 (R70, R153). -/
def execRequest (frame : CommandFrame) (s : State) : Host.Outcome State Fault Refusal :=
  done (s.receiveFrame 4 (commandRx frame 0))

/-- ABORT: a COMMAND of code 1 (R92, R153). -/
def execAbort (frame : CommandFrame) (s : State) : Host.Outcome State Fault Refusal :=
  done (s.receiveFrame 4 (commandRx frame 1))

/-- RESUME: a COMMAND of code 2 (R90, R153). -/
def execResume (frame : CommandFrame) (s : State) : Host.Outcome State Fault Refusal :=
  done (s.receiveFrame 4 (commandRx frame 2))

/-- REPORT: a COMMAND of code 3 (R153, R172). -/
def execReport (frame : CommandFrame) (s : State) : Host.Outcome State Fault Refusal :=
  done (s.receiveFrame 4 (commandRx frame 3))

/-- STATUS of another station (R154). -/
def execStatus (frame : RxFrame) (s : State) : Host.Outcome State Fault Refusal := done (s.receiveFrame 5 frame)

/-- RECORD of another station (R154). -/
def execRecord (frame : RxFrame) (s : State) : Host.Outcome State Fault Refusal := done (s.receiveFrame 6 frame)

/-- UNKNOWN_KIND: kind codes 7 to 15 (R149). -/
def execUnknownKind (kind : Fin 9) (frame : RxFrame) (s : State) : Host.Outcome State Fault Refusal :=
  done (s.receiveFrame (7 + kind.val) frame)

/-- COMMAND_NOT_ADDRESSED (R153): receive handling reads target, code and length, and passes it on to nobody. -/
def execCommandNotAddressed (frame : RxFrame) (s : State) : Host.Outcome State Fault Refusal :=
  done (s.receiveFrame 4 frame)

end Sys2Proof.Machine
end

