-- ==== Sys2Proof/Machine/LinkEvents.lean ====
section
/-! DEFINITION. The commands of the medium, of the node's own frames, of hold-back, rejoin and the status period (R134 to R137, R140, R146, R160, R161, R172). -/

namespace Sys2Proof.Machine

/-- The node receives a frame on the medium. -/
def State.receiving (s : State) : Bool := s.isRunning && decide (s.link.role = .receiver)

/-- The node is sending its own copy. -/
def State.sending (s : State) : Bool := s.isRunning && decide (s.link.role = .sender)

/-- RECEIVED_FRAME_CHECK_FAILED (R137, R138, R142, R145). -/
def execReceivedFrameCheckFailed (s : State) : Host.Outcome State Fault Refusal :=
  done (if s.receiving then s.checkFailed s.rejectAnswer else s)

/-- FRAME_BREAK_OFF (R137, R142): no receiver answers, and the check counts as failed at that moment. -/
def execFrameBreakOff (s : State) : Host.Outcome State Fault Refusal :=
  done (if s.receiving then s.checkFailed none else s)

/-- ARBITRATION_LOST (R135): the sender becomes a receiver, outcome LOST; TEC is unchanged and the slot keeps its content. -/
def execArbitrationLost (s : State) : Host.Outcome State Fault Refusal :=
  done (if s.sending then
      (s.onLink fun l => { l with role := .receiver, copy := none }).onTx fun t => { t with copyFrom := none }
    else s)

/-- FRAME_ABANDON (R136, R141): the sender becomes a receiver, outcome ABANDONED, TEC raised by 4 and judged. -/
def execFrameAbandon (s : State) : Host.Outcome State Fault Refusal :=
  done (if s.sending then
      ((s.onLink fun l => { l with role := .receiver, copy := none }).onTx fun t => { t with copyFrom := none }).tecUp
    else s)

/-- OWN_FRAME_END (R140, R141, R143, R160): TEC moves and the link state is judged, then the outcome is handed to the selector. -/
def execOwnFrameEnd (seen : AckSlots) (s : State) : Host.Outcome State Fault Refusal :=
  done (if s.sending then ((s.frameOver none).tecMove (copyOutcome seen)).handOutcome (copyOutcome seen) else s)

/-- MEDIUM_IDLE (R134): the medium carried no transition for 4 bit cells; no frame is in progress for this node. A BARRED node, which
receives nothing (R148), keeps its medium condition as it was. DESIGN CHOICE [36]. -/
def execMediumIdle (s : State) : Host.Outcome State Fault Refusal :=
  done (if s.isRunning = true ∧ s.link.role = .none ∧ s.link.state ≠ .barred then
      s.onLink fun l => { l with medium := .idle }
    else s)

/-- PEER_START_FIELD (R134, R137): on an idle medium the node becomes a receiver of the frame that starts. A BARRED node receives
nothing (R148) and keeps its medium condition as it was. DESIGN CHOICE [36]. -/
def execPeerStartField (s : State) : Host.Outcome State Fault Refusal :=
  done (if s.isRunning = true ∧ s.link.medium = .idle ∧ s.link.state ≠ .barred then
      s.onLink fun l => { l with medium := .busy, role := .receiver, holdOffMoved := false }
    else s)

/-- HOLD_BACK_EXPIRY (R161): the timer stops, and the next choice may be made. -/
def execHoldBackExpiry (s : State) : Host.Outcome State Fault Refusal :=
  done (if s.tx.holdBack.on then s.onTx fun t => { t with holdBack := .stopped } else s)

/-- The link controller at rejoin (R146): counts 0, ENGAGED, the medium BUSY until first seen idle. -/
def Link.rejoined (l : Link) : Link :=
  { l with
    state := .engaged, tec := 0, recCount := 0, medium := .busy, role := .none, copy := none, quiet := .stopped
    holdOffMoved := false }

/-- The transmit selector at rejoin (R162): class-A slots and marks cleared, the rest kept. -/
def Selector.rejoined (t : Selector) : Selector :=
  { t with own := none, product := Vector.replicate 4 none, marks := .clear }

/-- The blocks at rejoin (R25, R50, R146, R162), before the standing request is taken and the holds are judged. -/
def State.rejoined (s : State) : State :=
  ((((s.onLink Link.rejoined).onUpdates fun _ => ⟨[], false⟩).onBoard Board.clearAll).onTx Selector.rejoined).onAdm
    Admission.rejoin

/-- REJOIN (R146), at 5 s of quiet in DETACHED: a check failure taken first has set the timer back to 0, and the node stays DETACHED.
The standing request's own insert is placed before those of the product holds. DESIGN CHOICE [34]. -/
def execRejoin (s : State) : Host.Outcome State Fault Refusal :=
  done (if s.link.quiet.due Config.rejoinQuiet = true ∧ s.link.state = .detached then s.rejoined.takeRequest.judgeHolds else s)

/-- STATUS_PERIOD_EXPIRY (R172): the timer restarts and a STATUS is made. -/
def execStatusPeriodExpiry (s : State) : Host.Outcome State Fault Refusal :=
  done (if s.isRunning then (s.onLog fun l => { l with period := .from s.settings.statusMs }).makeStatus else s)

end Sys2Proof.Machine
end

