-- ==== Sys2Proof/Machine/ListController.lean ====
section
/-! DEFINITION. The commands of the list controller: each takes the operation at the head of the update queue and carries it out whole (R7, R8, R10 to R18), and the two expiries of the board (R15, R20). -/

namespace Sys2Proof.Machine

/-- The board under an apply-announcement operation that is not discarded: removal pass for role CIP, then the listed pairs in
order, then the failures marked (R11 to R13). The last component names the resources the first pass removed from. -/
def applyAnnouncement (capacity : Vector Nat 16) (a : Announcement) (b : Board) : BoardWork × List Res :=
  let listed := listedPairs capacity a.role [] a.pairs
  let removed := if a.role = .cip then removalPass a.owner (resourcesOf listed) b else (b, [])
  let w := listed.foldl (applyPair a) ⟨removed.1, [], []⟩
  ({ w with board := (w.board.markIncomplete w.failed).holdTimers }, removed.2)

/-- An apply-announcement operation on the whole node: discarded by R10, else applied, with VIEW_INCOMPLETE (R13), the overcommit
check (R21), and its result (R7). -/
def State.carryAnnouncement (s : State) (a : Announcement) : State :=
  if a.discarded s.settings.node then s.dequeue.hallResult (namedResources a.pairs)
  else
    let x := applyAnnouncement s.settings.capacity a s.board
    let s1 := ((s.onBoard fun _ => x.1.board).stickyIf (decide (x.1.failed ≠ [])) .viewIncomplete).stickyIf
      (overcommitted s.settings.capacity x.1.board x.1.changed) .overcommit
    s1.dequeue.hallResult (resourcesOf (listedPairs s.settings.capacity a.role [] a.pairs) ++ x.2)

/-- APPLY_ANNOUNCEMENT_CIP (R10, R11). -/
def execApplyAnnouncementCip (s : State) : Host.Outcome State Fault Refusal :=
  done (match s.updates.ops with
    | .announce a :: _ => if a.role = .cip then s.carryAnnouncement a else s
    | _ => s)

/-- APPLY_ANNOUNCEMENT_PRODUCT (R10, R12). -/
def execApplyAnnouncementProduct (s : State) : Host.Outcome State Fault Refusal :=
  done (match s.updates.ops with
    | .announce a :: _ => if a.role = .product then s.carryAnnouncement a else s
    | _ => s)

/-- An apply-release operation: discarded whole for owner 0 or this node (R14). -/
def State.carryRelease (s : State) (owner : Nat) (role : Role) (set : Word16) : State :=
  let rs := setMembers set
  let s1 :=
    if owner = 0 ∨ owner = s.settings.node then s
    else s.onBoard fun b => (b.releaseAll s.settings.capacity owner role rs).holdTimers
  s1.dequeue.hallResult rs

/-- APPLY_RELEASE (R14). -/
def execApplyRelease (s : State) : Host.Outcome State Fault Refusal :=
  done (match s.updates.ops with
    | .release owner role set :: _ => s.carryRelease owner role set
    | _ => s)

/-- An INHIBIT or CLEAR operation: the flags of the set, and INHIBIT_CHANGED (R16). -/
def State.carryInhibit (s : State) (value : Bool) (set : Word16) : State :=
  ((s.onBoard fun b => b.setInhibit value (setMembers set)).sticky .inhibitChanged).dequeue.hallResult (setMembers set)

/-- INHIBIT_OPERATION (R16). -/
def execInhibitOperation (s : State) : Host.Outcome State Fault Refusal :=
  done (match s.updates.ops with
    | .inhibit set :: _ => s.carryInhibit true set
    | _ => s)

/-- CLEAR_OPERATION (R16). -/
def execClearOperation (s : State) : Host.Outcome State Fault Refusal :=
  done (match s.updates.ops with
    | .clear set :: _ => s.carryInhibit false set
    | _ => s)

/-- An own insert: its entries placed, and the overcommit check (R17, R21). -/
def State.carryInsert (s : State) (role : Role) (pairs : List Pair) (key : Nat) (st : EntryState) : State :=
  let w := pairs.foldl (ownInsertPair s.settings.capacity s.settings.node role key st) ⟨s.board, [], []⟩
  ((s.onBoard fun _ => w.board.holdTimers).stickyIf (overcommitted s.settings.capacity w.board w.changed) .overcommit).dequeue.ownResult
    (resourcesOf pairs)

/-- OWN_INSERT (R17). -/
def execOwnInsert (s : State) : Host.Outcome State Fault Refusal :=
  done (match s.updates.ops with
    | .ownInsert role pairs key st :: _ => s.carryInsert role pairs key st
    | _ => s)

/-- An own update: the named own entries take their new values, and the overcommit check (R17, R21). -/
def State.carryUpdate (s : State) (role : Role) (pairs : List Pair) (key : Nat) (st : EntryState) : State :=
  let w := pairs.foldl (ownUpdatePair role key st) ⟨s.board, [], []⟩
  ((s.onBoard fun _ => w.board).stickyIf (overcommitted s.settings.capacity w.board w.changed) .overcommit).dequeue.updateResult
    st (resourcesOf pairs)

/-- OWN_UPDATE (R17). -/
def execOwnUpdate (s : State) : Host.Outcome State Fault Refusal :=
  done (match s.updates.ops with
    | .ownUpdate role pairs key st :: _ => s.carryUpdate role pairs key st
    | _ => s)

/-- An own remove (R17). -/
def State.carryRemove (s : State) (role : Role) (rs : List Res) : State :=
  (s.onBoard fun b => (b.ownRemove role rs).holdTimers).dequeue.ownResult rs

/-- OWN_REMOVE (R17). -/
def execOwnRemove (s : State) : Host.Outcome State Fault Refusal :=
  done (match s.updates.ops with
    | .ownRemove role rs :: _ => s.carryRemove role rs
    | _ => s)

/-- An evaluate operation: the fit test against the board as it stands, and its outcome (R18, R29). -/
def State.carryEvaluate (s : State) : State :=
  let s1 := s.dequeue.outcome (fitTest s.settings.capacity s.board)
  s1.actVerdict (s.verdict (s.board.ownClaims.map (·.1)))

/-- EVALUATE (R18, R29). -/
def execEvaluate (s : State) : Host.Outcome State Fault Refusal :=
  done (match s.updates.ops with
    | .evaluate :: _ => s.carryEvaluate
    | _ => s)

/-- ENTRY_EXPIRY (R15): a due entry is unlinked and freed, PEER_LAPSED set if it was RUNNING. An entry that is not due, its life
set afresh by an announcement taken first, stays as it is; an own entry has no life and is never due. -/
def execEntryExpiry (entry : Fin 64) (s : State) : Host.Outcome State Fault Refusal :=
  done (match s.board.whereIs entry with
    | some (r, e) =>
      if e.due then
        (((s.onBoard fun b => (b.unlink r fun x => decide (x.num = entry)).holdTimers).stickyIf
          (decide (e.state = .running)) .peerLapsed)).hallResult [r]
      else s
    | none => s)

/-- INCOMPLETE_TIMER_EXPIRY (R20), at 8 s: the flag clears, the timer stops at 0, and a change notice names the resource. An insertion
failure taken first has set the timer back to 0, and the flag stays set. -/
def execIncompleteTimerExpiry (resource : Res) (s : State) : Host.Outcome State Fault Refusal :=
  done (if s.board.incompleteDue resource then
      (s.onBoard fun b =>
        { b with
          incomplete := modAt b.incomplete resource fun _ => false
          incompleteMs := modAt b.incompleteMs resource fun _ => 0 }).notice [resource]
    else s)

end Sys2Proof.Machine
end

