-- ==== Sys2Proof/Machine/RoundTimers.lean ====
section
/-! DEFINITION. The commands of the round sequencer's timers (R81, R82, R91). Each acts while its timer runs, the step timer only at its limit [3]. -/

namespace Sys2Proof.Machine

/-- STEP_TIMER_EXPIRY (R81), at the step's limit: the round is suspended with STEP_TIME. A burst completed first has ended the
attempt, and a step entered at once has started the timer from 0 (R83, R86). -/
def execStepTimerExpiry (s : State) : Host.Outcome State Fault Refusal :=
  done (if s.seq.stepTimer.due (s.curStep.limit * 1000) = true ∧ s.seq.state = .running then s.suspend .stepTime else s)

/-- PAUSE_TIMER_EXPIRY (R82): the phase becomes BURST and the verifier is told. -/
def execPauseTimerExpiry (s : State) : Host.Outcome State Fault Refusal :=
  done (if s.seq.pauseTimer.on = true ∧ s.seq.state = .running ∧ s.seq.phase = .pause then
      (s.onSeq fun q => { q with phase := .burst, pauseTimer := .stopped }).onVer Verifier.pauseEnds
    else s)

/-- SUSPEND_TIMER_EXPIRY (R91): the round ends ABANDONED. -/
def execSuspendTimerExpiry (s : State) : Host.Outcome State Fault Refusal :=
  done (if s.seq.suspendTimer.on = true ∧ s.seq.state = .suspended then s.closeRound .abandoned else s)

end Sys2Proof.Machine
end

