-- ==== Sys2Proof/Machine/SampleExchange.lean ====
section
/-! DEFINITION. The commands of the sample exchange with the front-end (R120 to R124) and the handing of a sample (R97). -/

namespace Sys2Proof.Machine

/-- The verifier takes a sample (R97), and the round sequencer acts on its report (R82, R84). -/
def State.takeSample (s : State) (x : Sample) : State :=
  let e := s.ver.takeSample s.settings.sampleMs s.settings.sensorLimit s.curStep (s.convSet s.curStep) x
  let s1 := (s.onVer fun _ => e.ver).stickyIf e.sensorAbsent .sensorAbsent
  match e.report with
  | .nothing => s1
  | .burstComplete => s1.burstComplete
  | .sensorLost => s1.sensorLostReport

/-- The exchange ends: the reply timer stops at 0 and the exchange is IDLE (R121, R122). -/
def Port.endExchange (p : Port) : Port := { p with exchange := .idle, replyTimer := .stopped }

/-- The exchange ends with a valid reply: the absent count is 0 and the silent condition clear (R121, R123, R124). -/
def State.validReply (s : State) (bytes : List Byte) : State :=
  (s.onPort fun p => { p.endExchange with absent := 0, silent := false }).takeSample (replySample bytes)

/-- The exchange ends without a valid reply: the absent count rises to the sensor-loss limit, which sets the silent condition;
while that is set FRONTEND_SILENT is set, and a sample with every channel absent is handed (R123, R124). -/
def State.noReply (s : State) : State :=
  let n := min (s.port.absent + 1) s.settings.sensorLimit
  let silent := s.port.silent || decide (n = s.settings.sensorLimit)
  ((s.onPort fun p => { p.endExchange with absent := n, silent := silent }).stickyIf silent .frontendSilent).takeSample
    absentSample

/-- SAMPLE_PERIOD_EXPIRY (R120): the timer restarts, the request number rises and the request is sent. Every exchange has ended
by then; an expiry in AWAITING cannot occur and changes nothing. -/
def execSamplePeriodExpiry (s : State) : Host.Outcome State Fault Refusal :=
  done (if s.isRunning = true ∧ s.port.exchange = .idle then
      s.onPort fun p =>
        let n := (p.requestNumber + 1) % 256
        { p with
          samplePeriod := .from s.settings.sampleMs, requestNumber := n, request := some (sampleRequest n)
          replyTimer := .from 0, exchange := .awaiting }
    else s)

/-- SAMPLE_REPLY (R121): valid, late, damaged, or discarded in IDLE. -/
def execSampleReply (bytes : List Byte) (s : State) : Host.Outcome State Fault Refusal :=
  done (if s.isRunning = true ∧ s.port.exchange = .awaiting then
      if replyCheckGood bytes then
        if byteAt 0 bytes 0 = s.port.requestNumber then s.validReply bytes else s
      else s.noReply
    else s)

/-- REPLY_TIMEOUT (R122): the reply timer's limit ends the exchange. -/
def execReplyTimeout (s : State) : Host.Outcome State Fault Refusal :=
  done (if s.isRunning = true ∧ s.port.exchange = .awaiting then s.noReply else s)

end Sys2Proof.Machine
end

