-- ==== Sys2Proof/Machine/Dispatch.lean ====
section
/-! DEFINITION. The one place where a command meets its meaning: one arm for each constructor of `Instr`. -/

namespace Sys2Proof.Machine

/-- The command's effect on everything but the queue of commands. -/
def exec (i : Instr) (s : State) : Host.Outcome State Fault Refusal :=
  match i with
  | .powerUp => Sys2Proof.Machine.execPowerUp s
  | .resetRisingEdge => Sys2Proof.Machine.execResetRisingEdge s
  | .resetFallingEdge => Sys2Proof.Machine.execResetFallingEdge s
  | .imageReadEnd bytes => Sys2Proof.Machine.execImageReadEnd bytes s
  | .startUpComplete => Sys2Proof.Machine.execStartUpComplete s
  | .uptimeTick => Sys2Proof.Machine.execUptimeTick s
  | .inputLevelChange input active => Sys2Proof.Machine.execInputLevelChange input active s
  | .reqRisingEdge line => Sys2Proof.Machine.execReqRisingEdge line s
  | .confirmRisingEdge => Sys2Proof.Machine.execConfirmRisingEdge s
  | .stopChange => Sys2Proof.Machine.execStopChange s
  | .prodLineChange line => Sys2Proof.Machine.execProdLineChange line s
  | .samplePeriodExpiry => Sys2Proof.Machine.execSamplePeriodExpiry s
  | .sampleReply bytes => Sys2Proof.Machine.execSampleReply bytes s
  | .replyTimeout => Sys2Proof.Machine.execReplyTimeout s
  | .applyAnnouncementCip => Sys2Proof.Machine.execApplyAnnouncementCip s
  | .applyAnnouncementProduct => Sys2Proof.Machine.execApplyAnnouncementProduct s
  | .applyRelease => Sys2Proof.Machine.execApplyRelease s
  | .inhibitOperation => Sys2Proof.Machine.execInhibitOperation s
  | .clearOperation => Sys2Proof.Machine.execClearOperation s
  | .ownInsert => Sys2Proof.Machine.execOwnInsert s
  | .ownUpdate => Sys2Proof.Machine.execOwnUpdate s
  | .ownRemove => Sys2Proof.Machine.execOwnRemove s
  | .evaluate => Sys2Proof.Machine.execEvaluate s
  | .entryExpiry entry => Sys2Proof.Machine.execEntryExpiry entry s
  | .incompleteTimerExpiry resource => Sys2Proof.Machine.execIncompleteTimerExpiry resource s
  | .agingExpiry => Sys2Proof.Machine.execAgingExpiry s
  | .learningExpiry => Sys2Proof.Machine.execLearningExpiry s
  | .settleExpiry => Sys2Proof.Machine.execSettleExpiry s
  | .lapseExpiry => Sys2Proof.Machine.execLapseExpiry s
  | .refreshExpiry => Sys2Proof.Machine.execRefreshExpiry s
  | .guardExpiry => Sys2Proof.Machine.execGuardExpiry s
  | .productRefreshExpiry line => Sys2Proof.Machine.execProductRefreshExpiry line s
  | .stepTimerExpiry => Sys2Proof.Machine.execStepTimerExpiry s
  | .pauseTimerExpiry => Sys2Proof.Machine.execPauseTimerExpiry s
  | .suspendTimerExpiry => Sys2Proof.Machine.execSuspendTimerExpiry s
  | .announce frame => Sys2Proof.Machine.execAnnounce frame s
  | .release frame => Sys2Proof.Machine.execRelease frame s
  | .inhibit frame => Sys2Proof.Machine.execInhibit frame s
  | .clear frame => Sys2Proof.Machine.execClear frame s
  | .request frame => Sys2Proof.Machine.execRequest frame s
  | .abort frame => Sys2Proof.Machine.execAbort frame s
  | .resume frame => Sys2Proof.Machine.execResume frame s
  | .report frame => Sys2Proof.Machine.execReport frame s
  | .status frame => Sys2Proof.Machine.execStatus frame s
  | .record frame => Sys2Proof.Machine.execRecord frame s
  | .unknownKind kind frame => Sys2Proof.Machine.execUnknownKind kind frame s
  | .receivedFrameCheckFailed => Sys2Proof.Machine.execReceivedFrameCheckFailed s
  | .frameBreakOff => Sys2Proof.Machine.execFrameBreakOff s
  | .arbitrationLost => Sys2Proof.Machine.execArbitrationLost s
  | .frameAbandon => Sys2Proof.Machine.execFrameAbandon s
  | .ownFrameEnd seen => Sys2Proof.Machine.execOwnFrameEnd seen s
  | .mediumIdle => Sys2Proof.Machine.execMediumIdle s
  | .holdBackExpiry => Sys2Proof.Machine.execHoldBackExpiry s
  | .rejoin => Sys2Proof.Machine.execRejoin s
  | .statusPeriodExpiry => Sys2Proof.Machine.execStatusPeriodExpiry s
  | .commandNotAddressed frame => Sys2Proof.Machine.execCommandNotAddressed frame s
  | .peerStartField => Sys2Proof.Machine.execPeerStartField s

end Sys2Proof.Machine
end

