-- ==== Sys2Proof/Machine/Step.lean ====
section
/-! DEFINITION. One step: the command at the front of the queue, or, where none waits, what falls due of itself, or one millisecond. -/

namespace Sys2Proof.Machine

/-- No command waits: the command that falls due of itself, or else one millisecond passes. DESIGN CHOICE [2]. -/
def idle (s : State) : Host.Outcome State Fault Refusal :=
  match s.dueCommand with
  | some c => exec c s
  | none => done s.tick

/-- The command at the front of the queue is carried out on the state with the queue's rest. -/
def step (s : State) : Host.Outcome State Fault Refusal :=
  match s.pending with
  | c :: rest => exec c { s with pending := rest }
  | [] => idle s

/-- The state with the command that a table word spells at the front of its queue; unchanged where the word spells none. -/
def State.withFetchWord (s : State) (nbits w : Nat) : State :=
  match decodeTableWord nbits w with
  | some c => { s with pending := c :: s.pending }
  | none => s

end Sys2Proof.Machine
end

