-- ==== Sys2Proof/Safety.lean ====
section
/-! DEFINITION. The terms claims use: what a command leaves alone (`Untouched`), and the properties that every step keeps. -/

namespace Sys2Proof.Machine

/-! ### What a command leaves alone -/

/-- The blocks of State, the queue of commands apart. -/
inductive Block where
  | loader | settings | store | board | updates | adm | seq | ver | port | link | tx | log
deriving DecidableEq, Repr

/-- A field port that differs in the driven lines alone (R128, R130). -/
def SamePort (p q : Port) : Prop := q = { p with outputs := q.outputs, indicators := q.indicators }

/-- A link controller that differs at most by the frame being sent: what beginning an own frame changes (R134, R157). -/
def SameLink (l k : Link) : Prop :=
  k = { l with copy := k.copy, role := k.role, medium := k.medium, holdOffMoved := k.holdOffMoved }

/-- A selector that differs at most by a choice: what beginning an own frame changes (R157 to R159). -/
def SameTx (a b : Selector) : Prop :=
  b = { a with copyFrom := b.copyFrom, marks := b.marks, turn := b.turn, turnCount := b.turnCount }

/-- Every block but the named ones is as it was, and so is the queue of commands. The driven lines, and what beginning an
own frame on the idle medium changes, are judged by statements of their own. -/
structure Untouched (but : List Block) (s t : State) : Prop where
  loader : .loader ∉ but → t.loader = s.loader
  settings : .settings ∉ but → t.settings = s.settings
  store : .store ∉ but → t.store = s.store
  board : .board ∉ but → t.board = s.board
  updates : .updates ∉ but → t.updates = s.updates
  adm : .adm ∉ but → t.adm = s.adm
  seq : .seq ∉ but → t.seq = s.seq
  ver : .ver ∉ but → t.ver = s.ver
  port : .port ∉ but → SamePort s.port t.port
  link : .link ∉ but → SameLink s.link t.link
  tx : .tx ∉ but → SameTx s.tx t.tx
  log : .log ∉ but → t.log = s.log
  pending : t.pending = s.pending

/-- The three commands that put every block into its reset or start-up state (R127, R175, R181). -/
def startsAfresh (c : Instr) : Prop := c = .powerUp ∨ c = .resetRisingEdge ∨ c = .startUpComplete

/-- The line of an input. -/
def Port.line (p : Port) : Input → Line
  | .req i => p.req[i]
  | .confirm => p.confirm
  | .stop => p.stop
  | .prod i => p.prod[i]
  | .reset => p.reset

/-- A flag stands set on the node. -/
def State.flag (s : State) (f : Sticky) : Bool := s.log.isSet f

/-! ### Before start-up completes (R23, R51, R55, R69, R96, R119, R132, R155, R163, R175, R180) -/

/-- Every block is in the condition its chapter gives for the time before start-up completes. -/
structure State.Inert (s : State) : Prop where
  settings : s.settings = .empty
  store : s.store = .empty
  board : s.board = .start
  updates : s.updates = ⟨[], false⟩
  adm : s.adm = .start
  seq : s.seq = .start
  ver : s.ver = .start
  link : s.link = .start
  tx : s.tx = .start
  log : s.log = .start
  uptime : s.loader.uptime = 0 ∧ s.loader.uptimeMs = 0
  exchange : s.port.exchange = .idle ∧ s.port.samplePeriod = .stopped ∧ s.port.replyTimer = .stopped
  outputs : s.port.outputs = 0

/-- The node is inert in every phase but RUNNING. -/
def State.InertUntilRunning (s : State) : Prop := s.loader.phase ≠ .running → s.Inert

/-! ### The entry pool (R1 to R6) -/

/-- The entry numbers on the 16 resource lists and on the free list. -/
def Board.numbers (b : Board) : List (Fin 64) := (allRes.flatMap fun r => (b.lists[r]).map (·.num)) ++ b.free

/-- The peer entries of all resource lists. -/
def Board.peers (b : Board) : List Entry := allRes.flatMap fun r => (b.lists[r]).filter fun e => !e.own

/-- Every entry number lies on exactly one list (R3), and at most 57 entries are peer entries (R5). -/
structure Board.Accounted (b : Board) : Prop where
  once : b.numbers.Perm Board.allFree
  peerLimit : b.peers.length ≤ 57

/-- Key, role, state, own flag and life of an entry agree (R2, R6). -/
structure Entry.Fits (node : Nat) (e : Entry) : Prop where
  cip : e.role = .cip → 65 ≤ e.key ∧ e.key ≤ 4095 ∧ e.key % 64 = e.owner
  product : e.role = .product → e.key = e.owner ∧ e.owner ≤ 63
  held : e.state = .held ↔ e.role = .product
  own : e.own = true ↔ e.owner = node
  life : e.own = true ↔ e.life = none
  lifeRange : ∀ l ∈ e.life, l.units ≤ 275

/-- A key and state that the node may give its own entries of a role (R27, R53). -/
def ownFits (node : Nat) (role : Role) (key : Nat) (st : EntryState) : Prop :=
  match role with
  | .cip => 65 ≤ key ∧ key ≤ 4095 ∧ key % 64 = node ∧ st ≠ .held
  | .product => key = node ∧ st = .held

/-- What an operation of the update queue carries agrees with where it comes from (R150, R27, R53). -/
def Op.Fits (node : Nat) : Op → Prop
  | .announce a => a.owner = a.key % 64 ∧ a.key ≤ 4095 ∧ a.life ≤ 255
  | .ownInsert role _ key st => ownFits node role key st
  | .ownUpdate role _ key st => ownFits node role key st
  | _ => True

/-- Two entries of one list, the first before the second (R4). -/
def Entry.Before (x y : Entry) : Prop := x.key < y.key ∧ ¬(x.owner = y.owner ∧ x.role = y.role)

/-- The lane board is ranked (R4), with what keeps it so: fitting entries, fitting operations, a node number of 1 to 63
and urgencies of at most 62 (R2, R27, R28, R56, R177). -/
structure State.Ranked (s : State) : Prop where
  ascending : ∀ r : Res, (s.board.lists[r]).Pairwise Entry.Before
  entries : ∀ r : Res, ∀ e ∈ s.board.lists[r], e.Fits s.settings.node
  absent : ∀ r : Res, s.settings.capacity[r] = 0 → s.board.lists[r] = []
  queued : ∀ op ∈ s.updates.ops, op.Fits s.settings.node
  waiting : ∀ op ∈ s.adm.waiting, op.Fits s.settings.node
  node : s.loader.phase = .running → 1 ≤ s.settings.node ∧ s.settings.node ≤ 63
  image : s.loader.phase = .validating → 1 ≤ byteAt 255 s.loader.image 4 ∧ byteAt 255 s.loader.image 4 ≤ 63
  urgency : s.adm.urgency ≤ 62
  bases : ∀ i : Fin 4, (s.store.slots[i]).baseUrgency ≤ 62

/-- An entry is new on its list, or has another state, demand or key than it had (R21). -/
def Entry.changedFrom (e : Entry) (old : Option Entry) : Prop :=
  ∀ x, old = some x → ¬(x.state = e.state ∧ x.demand = e.demand ∧ x.key = e.key)

/-- The demands of the RUNNING entries of a list, and the capacity once for each HELD entry, exceed the capacity (R21). -/
def overfull (capacity : Nat) (l : List Entry) : Prop :=
  capacity < ((l.filter fun e => decide (e.state = .running)).map fun e => e.demand.getD 0).sum
    + capacity * (l.filter fun e => decide (e.state = .held)).length

/-! ### The update queue (R8, R9, R33) -/

/-- An operation that the admission unit placed. -/
def Op.isOwn : Op → Bool
  | .announce _ => false
  | .release _ _ _ => false
  | .inhibit _ => false
  | .clear _ => false
  | .ownInsert _ _ _ _ => true
  | .ownUpdate _ _ _ _ => true
  | .ownRemove _ _ => true
  | .evaluate => true

/-- Operations from the hall that wait. -/
def Updates.fromHall (u : Updates) : Nat := (u.ops.filter fun o => !o.isOwn).length

/-- Own operations that wait. -/
def Updates.fromOwn (u : Updates) : Nat := (u.ops.filter Op.isOwn).length

/-- Hold-off stands on at 12 or more and off at 8 or fewer (R9). -/
def Updates.HoldOffFits (u : Updates) : Prop :=
  (12 ≤ u.ops.length → u.holdOff = true) ∧ (u.ops.length ≤ 8 → u.holdOff = false)

/-- The bounds of the update queue, with what keeps them: at most 12 operations from the hall, at most two own ones, and room
left for the frame in progress that may have been acknowledged before hold-off began (R8, R9, R33). -/
structure State.QueueBounded (s : State) : Prop where
  hall : s.updates.fromHall ≤ 12
  own : s.updates.fromOwn = s.adm.outstanding
  outstanding : s.adm.outstanding ≤ 2
  waiting : s.adm.waiting ≠ [] → s.adm.outstanding = 2
  waitingOwn : ∀ op ∈ s.adm.waiting, op.isOwn = true
  holdOff : s.updates.HoldOffFits
  answered : s.link.role ≠ .none → s.link.holdOffMoved = true → s.updates.holdOff = true → s.updates.fromHall ≤ 11

/-! ### Running under a grant (R34, R78, R79, R80) -/

/-- The standing request carries the tag of the current attempt (R75). -/
def State.TagStands (s : State) : Prop := ∃ st, s.adm.standing = some st ∧ st.tag = s.seq.tag

/-- A round runs a claimed step only while the own step is RUNNING for the current attempt, and is CLAIMING only while the own
step claims or runs for it; off the line the own step is NONE. -/
structure State.Granted (s : State) : Prop where
  running : s.seq.state = .running → s.curStep.pairs ≠ [] → s.adm.own = .running ∧ s.TagStands
  claiming : s.seq.state = .claiming →
    (s.adm.own = .claiming ∨ s.adm.own = .runPending ∨ s.adm.own = .running) ∧ s.TagStands
  standing : s.adm.own ≠ .none → s.adm.standing ≠ none
  offLine : s.onLine = false → s.adm.own = .none

/-! ### Rounds, attempts and records (R69, R76, R88, R95, R98, R166) -/

/-- The round states in which an attempt is open. -/
def RoundState.attempting : RoundState → Bool
  | .idle => false
  | .holdWait => true
  | .waiting => true
  | .claiming => true
  | .running => true
  | .suspended => false
  | .closing => false

/-- Round state, open attempt, verifier mode, suspend timer and the record under composition agree. -/
structure State.RoundFits (s : State) : Prop where
  attempt : s.seq.attemptOpen = s.seq.state.attempting
  off : s.ver.mode = .off ↔ s.seq.attemptOpen = false
  runs : s.ver.mode.isRunning = true ↔ s.seq.state = .running
  suspended : s.seq.suspendTimer.on = true ↔ s.seq.state = .suspended
  stepTimer : s.seq.stepTimer.on = true ↔ s.seq.state = .running
  record : s.seq.state = .idle ↔ s.log.comp = none
  closing : s.seq.state = .closing ↔ s.log.waitingRecord.isSome = true

/-- A record goes on as another: of the same round, with results appended at most (R165, R166). -/
def Record.continuedBy (x y : Record) : Prop :=
  y.roundNumber = x.roundNumber ∧ y.slot = x.slot ∧ y.endIndex = x.endIndex ∧ x.results <+: y.results

/-! ### The verifier's numbers (R96, R104, R112) -/

/-- Credit within the required credit, and the recovered and drained volumes making up the returned one, below 2^40. -/
structure Verifier.Sound (v : Verifier) : Prop where
  credit : v.credit ≤ v.required
  volume : v.recovered + v.drained = v.returned
  limit : v.returned < 2 ^ 40

/-! ### The link controller's counts and states (R132, R143, R145, R148) -/

/-- Counts of at most 255, and a link state that the counts allow. -/
structure Link.CountsFit (l : Link) : Prop where
  tec : l.tec ≤ 255
  rec_ : l.recCount ≤ 255
  engaged : l.state = .engaged → l.tec < 96 ∧ l.recCount < 96
  reticent : l.state = .reticent → l.tec < 192

/-- The own copy, the sender's role and the selector's record of the copy stand or fall together, on a busy medium; a BARRED
node has no part in any frame (R132, R134, R148, R155). -/
structure State.CopyFits (s : State) : Prop where
  sender : s.link.role = .sender ↔ s.link.copy.isSome = true
  copy : s.link.copy.isSome = true ↔ s.tx.copyFrom.isSome = true
  busy : s.link.role ≠ .none → s.link.medium = .busy
  barred : s.link.state = .barred → s.link.role = .none
  silent : s.onLine = false → s.link.role ≠ .sender

/-- Nothing bars an offer (R157): start-up is complete, the link state is ENGAGED or RETICENT, the medium is idle and the node has
no part in a frame, no hold-back runs, and no own copy is on the medium. -/
structure State.FreeToOffer (s : State) : Prop where
  phase : s.loader.phase = .running
  state : s.link.state = .engaged ∨ s.link.state = .reticent
  medium : s.link.medium = .idle
  role : s.link.role = .none
  holdBack : s.tx.holdBack.on = false
  copy : s.tx.copyFrom = none

/-! ### The band (R102) -/

/-- A sample meets the band of a step: Tr and Fs present and at least Tmin and Fmin; and where the step names a set, κ present too and
conc, by R100 and R101, within Cmin to Cmax (R102). -/
def Step.BandMet (st : Step) (set : Option ConvSet) (x : Sample) : Prop :=
  ∃ tr fs, x.tr = some tr ∧ x.fs = some fs ∧ st.tmin ≤ tr ∧ st.fmin ≤ fs ∧
    (st.convSet ≠ .none → ∃ k kappa, set = some k ∧ x.kappa = some kappa
      ∧ st.cmin ≤ concOf k.slope (kappa25Of k.alpha tr kappa) ∧ concOf k.slope (kappa25Of k.alpha tr kappa) ≤ st.cmax)

/-- The channels that a step requires are present: Tr and Fs, and κ where it names a set (R102). -/
def Step.ChannelsMet (st : Step) (x : Sample) : Prop :=
  x.tr ≠ none ∧ x.fs ≠ none ∧ (st.convSet ≠ .none → x.kappa ≠ none)

/-! ### What the configuration image holds (R190, R191) -/

/-- Byte k of recipe slot i in the image (R190). -/
def slotByte (bytes : List Byte) (i : Fin 4) (k : Nat) : Nat := byteAt 255 bytes (69 + 642 * i.val + k)

/-- Byte k of step record j of slot i (R190). -/
def stepByte (bytes : List Byte) (i : Fin 4) (j : Fin 20) (k : Nat) : Nat := slotByte bytes i (2 + 32 * j.val + k)

/-- The two-byte field at byte k of step record j of slot i (R183, R190). -/
def stepWord (bytes : List Byte) (i : Fin 4) (j : Fin 20) (k : Nat) : Nat :=
  stepByte bytes i j k * 256 + stepByte bytes i j (k + 1)

/-- Byte k of conversion set n (R190). -/
def convByte (bytes : List Byte) (n : Fin 4) (k : Nat) : Nat := byteAt 255 bytes (41 + 7 * n.val + k)

/-- The two-byte field at byte k of conversion set n (R183, R190). -/
def convWord (bytes : List Byte) (n : Fin 4) (k : Nat) : Nat := convByte bytes n k * 256 + convByte bytes n (k + 1)

/-- Step j of slot i is in use: the step count is 1 to 20 and above j, and no earlier step has LAST set (R56, R62). -/
def StepInUse (bytes : List Byte) (i : Fin 4) (j : Fin 20) : Prop :=
  slotByte bytes i 0 ≤ 20 ∧ j.val < slotByte bytes i 0 ∧ ∀ k : Fin 20, k < j → stepByte bytes i k 31 % 2 = 0

/-- Some field of step j of slot i lies outside the range to which R64 or R65 clamps it. For a set byte of 4 to 254 Cmin and Cmax are
judged as for a named set. DESIGN CHOICE [33]. -/
def StepOutOfRange (bytes : List Byte) (i : Fin 4) (j : Fin 20) : Prop :=
  let b := stepByte bytes i j
  let w := stepWord bytes i j
  w 22 = 0 ∨ 7200 < w 22 ∨ b 27 = 0 ∨ 16 < b 27 ∨ 600 < w 28 ∨ w 25 < 10 ∨ 14400 < w 25 ∨ w 25 < min (w 22) 7200
    ∨ 1500 < w 12 ∨ 500 < w 14 ∨ 1000 < w 20 ∨ b 11 ≠ 255 ∧ (9999 < w 16 ∨ 9999 < w 18)

/-- Step j of slot i has one of the faults that R66 lists, its fields clamped. -/
def StepFaulty (bytes : List Byte) (c : Settings) (i : Fin 4) (j : Fin 20) : Prop :=
  let b := stepByte bytes i j
  let w := stepWord bytes i j
  3 < b 0 ∨
  (∃ k : Fin 3, k.val < b 0 ∧ ∀ r : Res, r.val = b (1 + 2 * k.val) →
    c.capacity[r] = 0 ∨ b (2 + 2 * k.val) = 0 ∨ c.capacity[r] < b (2 + 2 * k.val)) ∨
  (∃ k l : Fin 3, k < l ∧ l.val < b 0 ∧ b (1 + 2 * k.val) = b (1 + 2 * l.val)) ∨
  (4 ≤ b 11 ∧ b 11 ≤ 254) ∨
  (∃ n : Fin 4, b 11 = n.val ∧ min (convWord bytes n 3) 9999 < min (convWord bytes n 5) 9999) ∨
  (b 11 ≠ 255 ∧ min (w 18) 9999 < min (w 16) 9999) ∨
  (b 30 = 2 ∧ b 11 = 255) ∨ 2 < b 30

/-- What the store keeps of step j of slot i, in use: R190's fields, clamped by R64 and R65; its CHAIN flag is judged apart. -/
structure StepKept (bytes : List Byte) (i : Fin 4) (j : Fin 20) (st : Step) : Prop where
  claimCount : st.claimCount = stepByte bytes i j 0
  claims : ∀ k : Nat, st.claims[k]? = if k < 3 ∧ k < stepByte bytes i j 0
    then some ⟨stepByte bytes i j (1 + 2 * k), stepByte bytes i j (2 + 2 * k)⟩ else none
  patterns : st.active.toNat = stepWord bytes i j 7 % 4096 ∧ st.pause.toNat = stepWord bytes i j 9 % 4096
  unset : st.convSet = .none ↔ stepByte bytes i j 11 = 255
  set : ∀ n : Fin 4, st.convSet = .set n ↔ stepByte bytes i j 11 = n.val
  tmin : st.tmin = min (stepWord bytes i j 12) 1500
  span : st.span = min (stepWord bytes i j 14) 500
  conc : stepByte bytes i j 11 < 4 → st.cmin = min (stepWord bytes i j 16) 9999 ∧ st.cmax = min (stepWord bytes i j 18) 9999
  fmin : st.fmin = min (stepWord bytes i j 20) 1000
  contact : st.contact = max 1 (min (stepWord bytes i j 22) 7200)
  grace : st.grace = stepByte bytes i j 24
  limit : st.limit = max (max 10 (min (stepWord bytes i j 25) 14400)) st.contact
  repeats : st.repeats = max 1 (min (stepByte bytes i j 27) 16)
  pauseTime : st.pauseTime = min (stepWord bytes i j 28) 600
  routing : (st.routing = .drain ↔ stepByte bytes i j 30 = 0) ∧ (st.routing = .recover ↔ stepByte bytes i j 30 = 1)
    ∧ (st.routing = .divert ↔ stepByte bytes i j 30 = 2)
  last : st.last = decide (stepByte bytes i j 31 % 2 = 1)
  mark : st.mark = decide (stepByte bytes i j 31 / 2 % 2 = 1)
  hold : st.hold = decide (stepByte bytes i j 31 / 4 % 2 = 1)
  timed : st.timed = decide (stepByte bytes i j 31 / 16 % 2 = 1)

/-- The CHAIN flag of a step is valid behind the steps of its recipe: an index above 0, a claim, no HOLD, and beside the step before it
the same resources with no larger demands (R67). -/
def ChainFits (steps : Vector Step 20) (j : Fin 20) : Prop :=
  0 < j.val ∧ steps[j].claims ≠ [] ∧ steps[j].hold = false ∧ ∀ p : Fin 20, p.val + 1 = j.val →
    (∀ k ∈ steps[j].claims, ∃ old ∈ steps[p].claims, old.resource = k.resource ∧ k.demand ≤ old.demand)
    ∧ ∀ old ∈ steps[p].claims, ∃ k ∈ steps[j].claims, k.resource = old.resource

/-! ### Attempts (R76, R77, R81, R99) -/

/-- A new attempt at step `i` has begun between two states (R76, R99): pointer, tag, repeats, and the verifier's start values. -/
structure FreshAttempt (s t : State) (i : Fin 20) (st : Step) : Prop where
  pointer : t.seq.pointer = i
  tag : t.seq.tag = (s.seq.tag + 1) % 256
  opened : t.seq.attemptOpen = true
  repeats : t.seq.repeats = st.repeats
  phase : t.seq.phase = .burst
  pause : t.seq.pauseTimer = .stopped
  required : t.ver.required = st.contact * 16 * (1000 / s.settings.sampleMs)
  counts : t.ver.credit = 0 ∧ t.ver.dropout = 0 ∧ t.ver.sensorLoss = 0 ∧ t.ver.reps = 0 ∧ t.ver.restarts = 0
  times : t.ver.waitMs = 0 ∧ t.ver.runMs = 0
  divert : t.ver.divert = if st.routing = .recover then .recover else .drain
  statistics : t.ver.minTr = none ∧ t.ver.maxTr = none ∧ t.ver.peak = none

/-- What entering step `st` gives (R76, R77, R81, R35): HOLD_WAIT for a HOLD step that is not confirmed, RUNNING at once for a
step with no claims, and otherwise WAITING with an admission request standing under the attempt's tag. -/
def Entered (t : State) (st : Step) (base : Nat) (confirmed : Bool) : Prop :=
  if st.hold = true ∧ confirmed = false then t.seq.state = .holdWait ∧ t.seq.stepTimer = .stopped ∧ t.ver.mode = .standby
  else if st.pairs = [] then t.seq.state = .running ∧ t.seq.stepTimer = .from 0 ∧ t.ver.mode = .burst
  else t.seq.state = .waiting ∧ t.seq.stepTimer = .stopped ∧ t.ver.mode = .standby
    ∧ t.adm.standing = some ⟨st.pairs, t.seq.tag⟩ ∧ t.adm.urgency = base ∧ t.adm.aging = 0

/-! ### Time (R6, R8, R20, R26, R28, R81, R91, R115, R125, R161, R172, R182) -/

/-- A timer after one millisecond more: it counts up to its limit while it runs. -/
def CountedUp (limit : Nat) (x y : Timer) : Prop := y = if x.on = true then ⟨true, min (x.ms + 1) limit⟩ else x

/-- A timer that holds the time left, after one millisecond more. -/
def CountedDown (x y : Timer) : Prop := y = if x.on = true then ⟨true, x.ms - 1⟩ else x

/-- A timer runs and has reached its limit. -/
def Reached (limit : Nat) (x : Timer) : Prop := x.on = true ∧ limit ≤ x.ms

/-- A timer that holds the time left has none left. -/
def RanOut (x : Timer) : Prop := x.on = true ∧ x.ms = 0

/-- The command is one that falls due of itself now: a peer entry's life is over, an operation stands at the head of the update queue,
a line has been steady for 50 ms, or a timer is at its limit in the state that it belongs to. -/
def State.Ripe (s : State) : Instr → Prop
  | .resetRisingEdge => Reached 50 s.port.reset.timer ∧ s.port.reset.level = true
  | .resetFallingEdge => Reached 50 s.port.reset.timer ∧ s.port.reset.level = false ∧ s.loader.phase = .held
  | .entryExpiry n => s.loader.phase = .running ∧ ∃ r : Res, ∃ e ∈ s.board.lists[r], e.num = n ∧ e.life.map (·.units) = some 0
  | .applyAnnouncementCip => s.loader.phase = .running ∧ ∃ a rest, s.updates.ops = .announce a :: rest ∧ a.role = .cip
  | .applyAnnouncementProduct => s.loader.phase = .running ∧ ∃ a rest, s.updates.ops = .announce a :: rest ∧ a.role = .product
  | .applyRelease => s.loader.phase = .running ∧ ∃ o r w rest, s.updates.ops = .release o r w :: rest
  | .inhibitOperation => s.loader.phase = .running ∧ ∃ w rest, s.updates.ops = .inhibit w :: rest
  | .clearOperation => s.loader.phase = .running ∧ ∃ w rest, s.updates.ops = .clear w :: rest
  | .ownInsert => s.loader.phase = .running ∧ ∃ r p k st rest, s.updates.ops = .ownInsert r p k st :: rest
  | .ownUpdate => s.loader.phase = .running ∧ ∃ r p k st rest, s.updates.ops = .ownUpdate r p k st :: rest
  | .ownRemove => s.loader.phase = .running ∧ ∃ r rs rest, s.updates.ops = .ownRemove r rs :: rest
  | .evaluate => s.loader.phase = .running ∧ ∃ rest, s.updates.ops = .evaluate :: rest
  | .stopChange => s.loader.phase = .running ∧ Reached 50 s.port.stop.timer
  | .reqRisingEdge i => s.loader.phase = .running ∧ Reached 50 (s.port.req[i]).timer ∧ (s.port.req[i]).level = true
  | .confirmRisingEdge => s.loader.phase = .running ∧ Reached 50 s.port.confirm.timer ∧ s.port.confirm.level = true
  | .prodLineChange i => s.loader.phase = .running ∧ Reached 50 (s.port.prod[i]).timer
  | .replyTimeout => s.loader.phase = .running ∧ s.port.exchange = .awaiting ∧ Reached 100 s.port.replyTimer
  | .samplePeriodExpiry => s.loader.phase = .running ∧ s.port.exchange = .idle ∧ RanOut s.port.samplePeriod
  | .incompleteTimerExpiry r => s.loader.phase = .running ∧ s.board.incomplete[r] = true ∧ 7 < s.board.free.length
      ∧ 8000 ≤ s.board.incompleteMs[r]
  | .learningExpiry => s.loader.phase = .running ∧ Reached 8000 s.adm.learning
  | .settleExpiry => s.loader.phase = .running ∧ s.adm.own = .claiming ∧ Reached s.settings.settleMs s.adm.settle
  | .lapseExpiry => s.loader.phase = .running ∧ (s.adm.own = .claiming ∨ s.adm.own = .runPending)
      ∧ Reached s.settings.lapseMs s.adm.lapse
  | .guardExpiry => s.loader.phase = .running ∧ s.adm.own = .running ∧ Reached s.settings.guardMs s.adm.guard
  | .refreshExpiry => s.loader.phase = .running ∧ (s.adm.own = .waiting ∨ s.adm.own = .running)
      ∧ Reached s.settings.refreshMs s.adm.refresh
  | .agingExpiry => s.loader.phase = .running ∧ s.adm.own = .waiting ∧ s.adm.state = .active
      ∧ (s.link.state = .engaged ∨ s.link.state = .reticent) ∧ s.settings.agingMs ≤ s.adm.aging
  | .productRefreshExpiry i => s.loader.phase = .running ∧ (s.adm.holds[i]).holding = true
      ∧ Reached s.settings.refreshMs (s.adm.holds[i]).refresh ∧ s.holdRes i ≠ none
  | .stepTimerExpiry => s.loader.phase = .running ∧ s.seq.state = .running ∧ Reached (s.curStep.limit * 1000) s.seq.stepTimer
  | .pauseTimerExpiry => s.loader.phase = .running ∧ s.seq.state = .running ∧ s.seq.phase = .pause ∧ RanOut s.seq.pauseTimer
  | .suspendTimerExpiry => s.loader.phase = .running ∧ s.seq.state = .suspended ∧ Reached s.settings.suspendMs s.seq.suspendTimer
  | .holdBackExpiry => s.loader.phase = .running ∧ Reached 10 s.tx.holdBack
  | .rejoin => s.loader.phase = .running ∧ s.link.state = .detached ∧ Reached 5000 s.link.quiet
  | .statusPeriodExpiry => s.loader.phase = .running ∧ RanOut s.log.period
  | .uptimeTick => s.loader.phase = .running ∧ 1000 ≤ s.loader.uptimeMs
  | _ => False

/-- Every running timer has counted one millisecond; nothing else of these blocks has moved but what beginning an own frame changes
and the driven lines. A REQ or CONFIRM line that has been inactive for 50 ms settles (log entry 4). -/
structure Passed (s t : State) : Prop where
  uptime : t.loader = { s.loader with uptimeMs := min (s.loader.uptimeMs + 1) 1000 }
  adm : t.adm = { s.adm with
    learning := t.adm.learning, settle := t.adm.settle, lapse := t.adm.lapse, refresh := t.adm.refresh
    guard := t.adm.guard, aging := t.adm.aging, holds := t.adm.holds }
  learning : CountedUp 8000 s.adm.learning t.adm.learning
  settle : CountedUp s.settings.settleMs s.adm.settle t.adm.settle
  lapse : CountedUp s.settings.lapseMs s.adm.lapse t.adm.lapse
  refresh : CountedUp s.settings.refreshMs s.adm.refresh t.adm.refresh
  guard : CountedUp s.settings.guardMs s.adm.guard t.adm.guard
  aging : t.adm.aging = if s.adm.own = .waiting ∧ s.adm.state = .active ∧ (s.link.state = .engaged ∨ s.link.state = .reticent)
    then min (s.adm.aging + 1) s.settings.agingMs else s.adm.aging
  holds : ∀ i : Fin 4, (t.adm.holds[i]).holding = (s.adm.holds[i]).holding
    ∧ CountedUp s.settings.refreshMs (s.adm.holds[i]).refresh (t.adm.holds[i]).refresh
  seq : t.seq = { s.seq with
    stepTimer := t.seq.stepTimer, pauseTimer := t.seq.pauseTimer, suspendTimer := t.seq.suspendTimer }
  stepTimer : CountedUp (s.curStep.limit * 1000) s.seq.stepTimer t.seq.stepTimer
  pauseTimer : CountedDown s.seq.pauseTimer t.seq.pauseTimer
  suspendTimer : CountedUp s.settings.suspendMs s.seq.suspendTimer t.seq.suspendTimer
  ver : t.ver = { s.ver with waitMs := t.ver.waitMs, runMs := t.ver.runMs }
  wait : t.ver.waitMs = if s.ver.mode = .standby then min (s.ver.waitMs + 1) 65535000 else s.ver.waitMs
  run : t.ver.runMs =
    if s.ver.mode ≠ .off ∧ s.ver.mode ≠ .standby then min (s.ver.runMs + 1) 65535000 else s.ver.runMs
  port : SamePort { s.port with
    samplePeriod := t.port.samplePeriod, replyTimer := t.port.replyTimer, req := t.port.req, confirm := t.port.confirm
    stop := t.port.stop, prod := t.port.prod, reset := t.port.reset } t.port
  samplePeriod : CountedDown s.port.samplePeriod t.port.samplePeriod
  replyTimer : CountedUp 100 s.port.replyTimer t.port.replyTimer
  lines : ∀ x : Input, (t.port.line x).level = (s.port.line x).level
  steady : ∀ x : Input, (s.port.line x).timer.ms + 1 < 50 ∨ x = .stop ∨ x = .reset ∨ (∃ i, x = .prod i) →
    (t.port.line x).debounced = (s.port.line x).debounced ∧ CountedUp 50 (s.port.line x).timer (t.port.line x).timer
  link : SameLink { s.link with quiet := t.link.quiet } t.link
  quiet : CountedUp 5000 s.link.quiet t.link.quiet
  tx : SameTx { s.tx with holdBack := t.tx.holdBack } t.tx
  holdBack : CountedUp 10 s.tx.holdBack t.tx.holdBack
  log : t.log = { s.log with period := t.log.period }
  period : CountedDown s.log.period t.log.period

/-! ### Hearing a frame (R137 to R140, R142, R143, R147) -/

/-- The node was in hold-off when it answered a frame: it is now, or, for a frame answered before hold-off last moved, it is not now
(R9). -/
abbrev State.HeldOffAt (s : State) (f : RxFrame) : Prop := s.updates.holdOff = !(f.early && s.link.holdOffMoved)

/-- A frame of a kind that this node takes as delivered without a change of link state: ENGAGED, or RETICENT with a count that keeps
it so; not in hold-off when it answered, whatever hold-off has done since (R9); the frame's check good, no other station rejecting or
holding it, and its sender another station. -/
structure State.Hears (s : State) (kind : Nat) (f : RxFrame) : Prop where
  running : s.loader.phase = .running
  role : s.link.role = .receiver
  medium : s.link.medium = .busy
  state : s.link.state = .engaged ∧ s.link.tec < 96 ∧ s.link.recCount ≤ 96 ∨
    s.link.state = .reticent ∧ s.link.tec < 192 ∧ (80 ≤ s.link.tec ∨ s.link.recCount = 0 ∨ 80 < s.link.recCount)
  accepts : ¬ s.HeldOffAt f
  check : checkGood kind f = true
  slots : f.others.reject = false ∧ f.others.hold = false
  sender : senderNumber kind f ≠ some s.settings.node

/-- A frame of a kind that this node takes as delivered in RETICENT, whatever becomes of the link state: all else as for a node that
is ENGAGED with low counts. -/
structure State.HearsReticent (s : State) (kind : Nat) (f : RxFrame) : Prop where
  reticent : s.link.state = .reticent
  tec : s.link.tec < 192
  hears : ({ s with link := { s.link with state := .engaged, tec := 0, recCount := 0 } } : State).Hears kind f

/-- The link controller after such a frame: ACCEPT answered, REC one lower, no part in a frame. -/
def Link.heard (l : Link) : Link :=
  { l with role := .none, copy := none, answer := some .accept, recCount := l.recCount - 1, holdOffMoved := false }

/-- A COMMAND of one code reaches its block: it is heard and its target addresses this node (R153). -/
def State.Reaches (s : State) (f : CommandFrame) (code : Byte) : Prop :=
  s.Hears 4 (commandRx f code) ∧ targetAddresses s.settings.node s.settings.groups f.target.toNat = true

/-! ### How a command arrives, and what its arrival alone does -/

/-- A round request for a slot arrives: by a rising edge of its REQ line with end index 255, or by a REQUEST frame (R70). -/
def State.Asks (s : State) (c : Instr) (slot endIndex : Nat) : Prop :=
  (∃ line : Fin 4, c = .reqRisingEdge line ∧ s.loader.phase = .running ∧ (s.port.req[line]).rising = true
    ∧ slot = line.val ∧ endIndex = 255) ∨
  (∃ f : CommandFrame, c = .request f ∧ s.Reaches f 0 ∧ slot = f.slot.toNat ∧ endIndex = f.endIndex.toNat)

/-- A command ends the active round early with an outcome: ABORT, STOP becoming active, or the suspend limit (R91 to R93). -/
def State.EndsRound (s : State) (c : Instr) (o : RoundOutcome) : Prop :=
  (∃ f : CommandFrame, c = .abort f ∧ s.Reaches f 1 ∧ s.seq.state.endable = true ∧ o = .aborted) ∨
  (c = .stopChange ∧ s.loader.phase = .running ∧ s.port.stop.timer.on = true ∧ s.port.stop.level = true
    ∧ s.seq.state.endable = true ∧ o = .stopped) ∨
  (c = .suspendTimerExpiry ∧ s.seq.suspendTimer.on = true ∧ s.seq.state = .suspended ∧ o = .abandoned)

/-- A command ends the exchange in progress and so hands the verifier a sample (R121 to R124): a valid reply its own, with the
absent count at 0; a damaged reply or the time limit one with every channel absent, the absent count rising to the
sensor-loss limit, at which the front-end is silent. -/
def State.EndsExchange (s : State) (c : Instr) (x : Sample) (n : Nat) (silent : Bool) : Prop :=
  (∃ bytes, c = .sampleReply bytes ∧ replyCheckGood bytes = true ∧ byteAt 0 bytes 0 = s.port.requestNumber
      ∧ x = replySample bytes) ∧ n = 0 ∧ silent = false ∨
  (c = .replyTimeout ∨ ∃ bytes, c = .sampleReply bytes ∧ replyCheckGood bytes = false)
      ∧ x = ⟨none, none, none, none⟩ ∧ n = min (s.port.absent + 1) s.settings.sensorLimit
      ∧ silent = (s.port.silent || decide (n = s.settings.sensorLimit))

/-- What a command's arrival does to the field port and the link: an input settles, a frame is heard; else nothing. -/
def Arrived (c : Instr) (s t : State) : Prop :=
  match c with
  | .reqRisingEdge line =>
    SamePort { s.port with req := modAt s.port.req line Line.settled } t.port ∧ SameLink s.link t.link
  | .confirmRisingEdge => SamePort { s.port with confirm := s.port.confirm.settled } t.port ∧ SameLink s.link t.link
  | .stopChange => SamePort { s.port with stop := s.port.stop.settled } t.port ∧ SameLink s.link t.link
  | .request _ => SamePort s.port t.port ∧ SameLink s.link.heard t.link
  | .abort _ => SamePort s.port t.port ∧ SameLink s.link.heard t.link
  | .resume _ => SamePort s.port t.port ∧ SameLink s.link.heard t.link
  | _ => SamePort s.port t.port ∧ SameLink s.link t.link

/-- The record unit as it was, but for HOLDOFF_ASSERTED, which an operation placed in the update queue may set (R9). -/
def SameLog (a b : Log) : Prop := b = a ∨ b = a.setFlag .holdoffAsserted

/-- The blocks that an evaluation, a verdict or an own operation may reach beyond the board. -/
def boardReach : List Block := [.board, .updates, .adm, .seq, .ver, .link, .tx, .log]

/-- The blocks that a round's progress may reach. -/
def roundReach : List Block := [.updates, .adm, .seq, .ver, .port, .link, .tx, .log]

/-- What the own result of a round's suspension leaves (R88): SUSPENDED with its cause, one more suspension, the limit counting
from 0, the attempt ended with its result handed to the record. -/
structure Suspended (s t : State) (c : Cause) : Prop where
  state : t.seq.state = .suspended
  count : t.seq.suspendCount = min (s.seq.suspendCount + 1) 255
  cause : t.seq.lastCause = some c
  limit : t.seq.suspendTimer = .from 0
  timers : t.seq.stepTimer = .stopped ∧ t.seq.pauseTimer = .stopped
  ended : t.seq.attemptOpen = false ∧ t.ver.mode = .off
  place : t.seq.pointer = s.seq.pointer ∧ t.seq.slot = s.seq.slot ∧ t.seq.roundNumber = s.seq.roundNumber
  withdrawn : s.curStep.pairs ≠ [] → t.adm.standing = none

/-- The own step runs for the current attempt of a round that claims or runs. -/
structure State.RunStands (s : State) : Prop where
  own : s.adm.own = .running
  tag : s.tagCurrent = true
  state : s.seq.state = .claiming ∨ s.seq.state = .running
  attempt : s.seq.attemptOpen = true

/-- What a verdict makes of a run that stands (R30, R45, R79): ROUTE_TAKEN suspends the round, its share released; SHED sets the flag
and begins a new attempt, and a HOLD step, which waits for CONFIRM, keeps no request (R77). -/
structure VerdictActed (s t : State) (v : Option Verdict) : Prop where
  routeTaken : v = some .routeTaken →
    Suspended s t .routeTaken ∧ t.adm.own = .none ∧ t.tx.own = some (.release (resourcesOf s.ownPairs))
  shed : v = some .shed →
    t.flag .shed = true ∧ FreshAttempt s t s.seq.pointer s.curStep ∧ Entered t s.curStep s.baseUrgency false
      ∧ (s.curStep.hold = true → t.adm.standing = none ∧ t.adm.own = .none)

end Sys2Proof.Machine
end

