-- ==== Sys2Proof/Certificates/Slice0/Obligations.lean ====
section
/-! DEFINITION. The statements for the provers. Titles, bases and rules stand in OBLIGATIONS.json. -/

open Sys2Proof Sys2Proof.Machine

/-! ### The step -/

/-- The command at the front of the queue is carried out on the state with the queue's rest. -/
def Obligations.StepRunsFrontCommand : Prop :=
  ∀ (c : Instr) (rest : List Instr) (s : State), s.pending = c :: rest → step s = exec c { s with pending := rest }

/-- With no command waiting, a step carries out what falls due of itself, or lets one millisecond pass (the model's
choice: log entries 2 and 15). What falls due is an entry whose life is over, an operation at the head of the update
queue, a line steady for 50 ms, or a timer at its limit, and while there is any of these, one of them is carried
out. With no change of RESET under way a due entry expires before the next operation is taken, and with no entry due
the operation at the head of the update queue is taken next. In a millisecond that passes every running timer
counts, the wait time in STANDBY and the run time in the running modes; nothing of an entry moves but its life, an
incomplete timer runs while its flag is set and the pool has peer room, and nothing is taken from the queue. A life
of n units stands at 0, its entry due, after 50 n ms from its setting and no sooner (R6, R8, R15, R20, R26, R28,
R81, R91, R115, R125, R161, R172). That a falling edge of REQ or CONFIRM settles in the passing millisecond is the
model's choice: log entry 4. -/
def Obligations.IdleStepTakesWhatIsDue : Prop :=
  (∀ s : State, s.pending = [] →
    (∀ c, s.dueCommand = some c → step s = exec c s) ∧ (s.dueCommand = none → step s = .next s.tick.finish)) ∧
  (∀ s : State, s.pending = [] → s.loader.phase = .running → s.port.reset.timer.on = false →
    ((∃ r : Res, ∃ e ∈ s.board.lists[r], e.life.map (·.units) = some 0) →
      ∃ r : Res, ∃ e ∈ s.board.lists[r], e.life.map (·.units) = some 0 ∧ step s = exec (.entryExpiry e.num) s) ∧
    ((∀ r : Res, ∀ e ∈ s.board.lists[r], e.life.map (·.units) ≠ some 0) →
      ∀ op rest, s.updates.ops = op :: rest → step s = exec op.instr s)) ∧
  (∀ s : State, s.pending = [] → s.loader.phase = .running → s.dueCommand = none →
    ∃ t, step s = .next t ∧ t.updates = s.updates ∧ t.settings = s.settings ∧ t.store = s.store ∧ t.pending = []
      ∧ t.board.free = s.board.free ∧ t.board.inhibit = s.board.inhibit ∧ t.board.incomplete = s.board.incomplete
      ∧ (∀ r : Res, t.board.lists[r] = (s.board.lists[r]).map fun e => { e with life := e.life.map Life.tick })
      ∧ ∀ r : Res, t.board.incompleteMs[r] =
          if s.board.incomplete[r] = true ∧ 7 < s.board.free.length then min (s.board.incompleteMs[r] + 1) 8000 else 0) ∧
  (∀ s : State, s.pending = [] → s.loader.phase = .running → s.dueCommand = none → ∃ t, step s = .next t ∧ Passed s t) ∧
  (∀ s : State, (∀ c, s.dueCommand = some c → s.Ripe c) ∧ (s.dueCommand = none → ∀ c, ¬ s.Ripe c)) ∧
  (∀ n ms : Nat, Nat.repeat Life.tick ms ⟨n, 0⟩ = if ms < 50 * n then ⟨n - ms / 50, ms % 50⟩ else ⟨0, 0⟩)

/-- Every command answers a next state and leaves the queue of commands as it is. The model's choice for a command
that cannot occur: log entry 16. -/
def Obligations.CommandsCompleteAndLeaveTheQueue : Prop :=
  ∀ (c : Instr) (s : State), ∃ t, exec c s = .next t ∧ t.pending = s.pending

/-- State.reset: the node held, everything empty, off the medium, de-energised (R175, R23, R55, R69, R119, R128,
R130). Items to which the manual gives only a start-up value hold it there, the fields of the empty settings and
store are zeros, and the pins are inactive: the model's choices, log entries 1, 19, 21 and 31. -/
def Obligations.ResetStateIsHeld : Prop :=
  State.reset.loader = ⟨.held, .none, [], 0, 0⟩ ∧ State.reset.Inert ∧ State.reset.board.free = List.finRange 64
    ∧ (∀ r : Res, State.reset.board.lists[r] = [] ∧ State.reset.board.inhibit[r] = false
        ∧ State.reset.board.incomplete[r] = false ∧ State.reset.board.incompleteMs[r] = 0)
    ∧ (∀ i : Fin 4, (State.reset.store.slots[i]).usable = false ∧ (State.reset.store.sets[i]).usable = false)
    ∧ State.reset.seq.state = .idle ∧ State.reset.seq.roundNumber = 0 ∧ State.reset.ver.mode = .off
    ∧ State.reset.link.tec = 0 ∧ State.reset.link.recCount = 0 ∧ State.reset.log.flags = 0
    ∧ State.reset.port.requestNumber = 255
    ∧ State.reset.port.indicators = ⟨false, false, false, false⟩ ∧ State.reset.pending = []

/-! ### Lines and indicators -/

/-- After every step the output lines show the pattern and the divert state, and are de-energised outside RUNNING
(R59, R87, R111, R128, R129). -/
def Obligations.OutputLinesFollow : Prop :=
  ∀ s t : State, step s = .next t →
    (t.loader.phase ≠ .running → t.port.outputs = 0) ∧
    (t.loader.phase = .running → ∀ i : Fin 12,
      t.port.outputs.getLsbD i.val =
        if t.settings.divertLine = some i then
          decide (t.ver.divert = .recover) && decide (t.ver.mode ≠ .off ∧ t.ver.mode ≠ .standby)
        else if t.seq.state = .running ∧ t.seq.phase = .burst then t.curStep.active.getLsbD i.val
        else if t.seq.state = .running ∧ t.seq.phase = .pause then t.curStep.pause.getLsbD i.val
        else t.settings.rest.getLsbD i.val)

/-- After every step each indicator is on while its condition holds, and off before start-up completes (R130). -/
def Obligations.IndicatorsFollow : Prop :=
  ∀ s t : State, step s = .next t →
    (t.port.indicators.round = true ↔ t.loader.phase = .running ∧ t.seq.state ≠ .idle) ∧
    (t.port.indicators.operator = true ↔
      t.loader.phase = .running ∧ (t.seq.state = .holdWait ∨ t.seq.state = .suspended)) ∧
    (t.port.indicators.fault = true ↔
      t.loader.phase = .configFault ∨ t.loader.phase = .running ∧ (t.link.state = .barred ∨ t.port.silent = true)) ∧
    (t.port.indicators.link = true ↔ t.loader.phase = .running ∧ t.link.state = .engaged ∧ t.adm.state = .active)

/-! ### What every step keeps -/

/-- Outside RUNNING every block stays in the condition its chapter gives for the time before start-up completes
(R23, R51, R55, R69, R96, R119, R132, R155, R163, R175, R180). Items with only a start-up value hold it before
start-up, and the empty settings and store are zeros: the model's choices, log entries 19, 21 and 31. -/
def Obligations.InertUntilRunningKept : Prop :=
  ∀ s t : State, s.InertUntilRunning → step s = .next t → t.InertUntilRunning

/-- Every entry stays on exactly one list, and peers never take more than 57 entries (R3, R5). -/
def Obligations.EntryPoolAccountedKept : Prop :=
  ∀ s t : State, s.board.Accounted → step s = .next t → t.board.Accounted

/-- The lists stay ranked by strictly ascending key with one entry for each owner and role, keys bound to their
owners, and nothing stands on an absent resource (R1, R2, R4, R6, R27). -/
def Obligations.LaneBoardRankedKept : Prop :=
  ∀ s t : State, s.InertUntilRunning → s.Ranked → step s = .next t → t.Ranked

/-- The update queue keeps its bounds and never holds more than 14 operations (R8, R9, R33). -/
def Obligations.UpdateQueueBoundedKept : Prop :=
  ∀ s t : State, s.QueueBounded → step s = .next t → t.QueueBounded ∧ t.updates.ops.length ≤ 14

/-- A claimed step runs only while the own step is RUNNING under the same attempt (R34, R75, R78 to R80, R86). -/
def Obligations.ClaimedStepRunsUnderGrant : Prop :=
  ∀ s t : State, s.Granted → step s = .next t → t.Granted

/-- Round state, attempt, verifier mode, timers and the record under composition stay in agreement; and credit never
exceeds the required credit, recovered and drained volume making up the returned volume, below 2^40 (R69, R76, R88,
R94, R98, R104, R112, R166). -/
def Obligations.RoundAndVerifierAgreeKept : Prop :=
  (∀ s t : State, s.RoundFits → step s = .next t → t.RoundFits) ∧
  (∀ s t : State, s.ver.Sound → step s = .next t → t.ver.Sound)

/-- The error counts stay within 0 to 255 and the link state agrees with them; own copy, sender's role and the
selector's record of the copy stand or fall together, on a busy medium, and only on the line (R132, R134, R143, R145,
R148, R155, R162). -/
def Obligations.LinkControllerKept : Prop :=
  (∀ s t : State, s.link.CountsFit → step s = .next t → t.link.CountsFit) ∧
  (∀ s t : State, s.CopyFits → step s = .next t → t.CopyFits)

/-- State.reset meets every property above. -/
def Obligations.ResetMeetsTheInvariants : Prop :=
  State.reset.InertUntilRunning ∧ State.reset.board.Accounted ∧ State.reset.Ranked ∧ State.reset.QueueBounded
    ∧ State.reset.Granted ∧ State.reset.RoundFits ∧ State.reset.ver.Sound ∧ State.reset.link.CountsFit
    ∧ State.reset.CopyFits

/-! ### Rules over all commands -/

/-- Settings and recipe store stay as they are until the next reset (R55, R178). -/
def Obligations.SettingsAndRecipesFixed : Prop :=
  ∀ (c : Instr) (s t : State), exec c s = .next t → ¬ startsAfresh c →
    t.settings = s.settings ∧ t.store = s.store

/-- Only a CLEAR operation naming the resource, or a reset, clears an inhibit flag, and only an INHIBIT operation
naming it sets one (R16, R19, R25). -/
def Obligations.InhibitFlagsChangeByOperationOnly : Prop :=
  ∀ (c : Instr) (s t : State) (r : Res), exec c s = .next t → ¬ startsAfresh c →
    (s.board.inhibit[r] = true → t.board.inhibit[r] = false →
      c = .clearOperation ∧ ∃ w rest, s.updates.ops = .clear w :: rest ∧ w.getLsbD r.val = true) ∧
    (s.board.inhibit[r] = false → t.board.inhibit[r] = true →
      c = .inhibitOperation ∧ ∃ w rest, s.updates.ops = .inhibit w :: rest ∧ w.getLsbD r.val = true)

/-- BARRED has no exit except the next reset, and the counts stay as they were at entry to a node that has no part in
a frame (R148). -/
def Obligations.BarredUntilReset : Prop :=
  ∀ (c : Instr) (s t : State), exec c s = .next t → ¬ startsAfresh c → s.link.state = .barred →
    t.link.state = .barred ∧
      (s.link.role = .none → t.link.role = .none ∧ t.link.tec = s.link.tec ∧ t.link.recCount = s.link.recCount)

/-- A sticky flag that stands set is cleared only by the current delivery of a STATUS that carried it with no event
since, or by a reset (R173, R174). -/
def Obligations.StickyFlagsClearOnlyByStatus : Prop :=
  ∀ (c : Instr) (s t : State) (f : Sticky), exec c s = .next t → ¬ startsAfresh c →
    s.flag f = true → t.flag f = false →
      (∃ k, c = .ownFrameEnd k ∧ deliveredBy k = true) ∧ s.tx.copyFrom = some .status ∧ s.tx.marks.status = false
        ∧ s.log.carried.getLsbD f.index = true ∧ s.log.renewal.getLsbD f.index = false

/-- Under HOLD_ROUNDS no record is discarded: the dropped count and RECORD_DROPPED stay; every record of the queue stays
there in order, except a head whose last fragment has its current delivery; and the record under composition stays, its
results only appended to and none changed once it is complete, or joins the tail of the queue (R165 to R169). -/
def Obligations.HoldRoundsDiscardsNothing : Prop :=
  ∀ (c : Instr) (s t : State), exec c s = .next t → ¬ startsAfresh c → s.settings.policy = .holdRounds →
    t.log.dropped = s.log.dropped ∧ (s.flag .recordDropped = false → t.flag .recordDropped = false) ∧
    (s.RoundFits → ∃ (gone : Bool) (joined : Option Record),
      t.log.queue = (if gone then s.log.queue.tail else s.log.queue) ++ joined.toList
      ∧ (gone = true → (∃ k, c = .ownFrameEnd k ∧ deliveredBy k = true) ∧ s.tx.copyFrom = some .stream
          ∧ s.tx.marks.stream = false ∧ ∃ r rest, s.log.queue = r :: rest ∧ r.fragmentCount ≤ s.log.nextFragment + 1)
      ∧ (∀ x, s.log.comp = some x →
          (∃ y, t.log.comp = some y ∧ x.record.continuedBy y.record ∧ (x.complete = true → y = x)) ∨
          (∃ r, joined = some r ∧ x.record.continuedBy r ∧ (x.complete = true → r = x.record)))
      ∧ (∀ r, joined = some r → ∃ x, s.log.comp = some x ∧ x.record.continuedBy r))

/-- At each change of round state a STATUS is made: the one in the status slot carries the new state in byte 0, bits
7 to 5, and where a copy of an earlier one is on the medium the slot's replacement mark is set. Beside its bytes
stands the time the suspend timer has run, 0 at the suspension, whose cause byte 8 carries, and no command parts the
two (R74, R89, R156, R172, R187). That the time stands beside the 12 bytes, which leave no bit for it, is the
model's choice: log entry 37. -/
def Obligations.StatusAtEachRoundChange : Prop :=
  (∀ (c : Instr) (s t : State), exec c s = .next t → ¬ startsAfresh c → t.seq.state ≠ s.seq.state →
    (∃ bytes, t.tx.status = some bytes ∧ bytes.length = 12 ∧ byteAt 0 bytes 0 / 32 = t.seq.state.code)
      ∧ (s.link.medium = .busy → s.tx.copyFrom = some .status → t.tx.copyFrom = some .status → t.tx.marks.status = true)
      ∧ t.tx.statusSuspend = some t.seq.suspendTimer.ms
      ∧ (t.seq.state = .suspended → t.tx.statusSuspend = some 0 ∧ ∃ bytes, t.tx.status = some bytes
          ∧ byteAt 0 bytes 8 % 8 = causeCode t.seq.lastCause)) ∧
  (∀ (c : Instr) (s t : State), exec c s = .next t → ¬ startsAfresh c → s.tx.status.isSome = s.tx.statusSuspend.isSome →
    t.tx.status.isSome = t.tx.statusSuspend.isSome)

/-! ### Reset, loading, start-up, lines -/

/-- POWER_UP from any state, and a debounced rising edge of RESET from any state, hold the node: every block in its
reset condition, the pins keeping their levels with RESET debounced active (R119, R125, R127, R175, R182). That the
edge is taken while the stability timer of RESET runs, whatever its count, that items with only a start-up value
hold it in reset, that the other inputs stand debounced inactive there, and that the empty settings and store are
zeros, are the model's choices: log entries 4, 19, 21, 31 and 39. -/
def Obligations.ResetHoldsTheNode : Prop :=
  ∀ (c : Instr) (s : State),
    (c = .powerUp ∨ c = .resetRisingEdge ∧ s.port.reset.timer.on = true ∧ s.port.reset.level = true) →
    ∃ t, exec c s = .next t ∧ t.Inert ∧ t.loader = ⟨.held, .none, [], 0, 0⟩ ∧ t.pending = s.pending
      ∧ t.port.requestNumber = 255 ∧ t.port.absent = 0 ∧ t.port.silent = false
      ∧ t.port.indicators = ⟨false, false, false, false⟩
      ∧ (∀ x : Input, (t.port.line x).level = (s.port.line x).level
          ∧ (x ≠ .reset → (t.port.line x).debounced = false ∧ (t.port.line x).timer = .stopped))
      ∧ t.port.reset.debounced = true
      ∧ t.port.reset.timer = if s.port.reset.level then .stopped else .from 0

/-- A debounced falling edge of RESET in HELD begins the reading of the image and touches nothing else. At the end of
the read a wrong mark or length ends in CONFIG_FAULT with READ FAILURE, a wrong check with MISMATCH, a node number
outside 1 to 63 with GOOD and the image discarded; any other image is accepted (R127, R175 to R177, R180, R190). That
a missing byte reads as 255, and that the edge is taken while the stability timer runs, are the model's choices: log
entries 4 and 19. -/
def Obligations.LoaderReadsAndJudges : Prop :=
  (∀ s : State, s.port.reset.timer.on = true → s.port.reset.level = false → s.loader.phase = .held →
    ∃ t, exec .resetFallingEdge s = .next t ∧ Untouched [.loader, .port] s t
      ∧ t.loader = { s.loader with phase := .reading }
      ∧ SamePort { s.port with reset := ⟨false, false, .stopped⟩ } t.port) ∧
  (∀ (bytes : List Byte) (s : State), s.loader.phase = .reading →
    ∃ t, exec (.imageReadEnd bytes) s = .next t ∧ Untouched [.loader] s t
      ∧ t.loader.uptime = s.loader.uptime
      ∧ (if wordAt 255 bytes 0 ≠ 0x3E91 ∨ wordAt 255 bytes 2 ≠ 2639 then
          t.loader.phase = .configFault ∧ t.loader.check = .readFailure ∧ t.loader.image = []
        else if (checkBytes (bytes.take 2637)).toNat ≠ wordAt 255 bytes 2637 then
          t.loader.phase = .configFault ∧ t.loader.check = .mismatch ∧ t.loader.image = []
        else if byteAt 255 bytes 4 = 0 ∨ 63 < byteAt 255 bytes 4 then
          t.loader.phase = .configFault ∧ t.loader.check = .good ∧ t.loader.image = []
        else t.loader.phase = .validating ∧ t.loader.check = .good ∧ t.loader.image = bytes))

/-- START_UP_COMPLETE puts every block into its start-up state with the loaded settings and recipes: the board
empty, and in the update queue only the own PRODUCT inserts of the holds that begin, each judged from its lines, at
most two of them placed and the others waiting; the admission unit LEARNING with urgency 0, no record of a delivery,
no evaluation and its step timers stopped; the selector with empty slots but for those holds' announcements, clear
marks, turn B at count 0 and no hold-back; the record unit with no record, next fragment, dropped count and carried
set 0; the debounced states taken from the lines, the front-end not silent with absent count 0; the flags of
validation set with their renewal marks clear (R23, R51, R52, R53, R63, R119, R125, R155, R163, R173, R181, R182). -/
def Obligations.StartUpReleasesTheBlocks : Prop :=
  ∀ (s : State) (d : Loaded), s.loader.phase = .validating → d = loadImage s.loader.image →
    ∃ t, exec .startUpComplete s = .next t ∧ t.pending = s.pending
      ∧ t.loader = ⟨.running, s.loader.check, [], 0, 0⟩ ∧ t.settings = d.settings ∧ t.store = d.store
      ∧ t.board = .start ∧ t.seq = .start ∧ t.ver = .start ∧ t.link = .start
      ∧ t.adm.state = .learning ∧ t.adm.learning = .from 0 ∧ t.adm.own = .none ∧ t.adm.standing = none
      ∧ (∀ (i : Fin 4) (r : Res), t.holdRes i = some r →
          (t.adm.holds[i]).holding = t.holdWanted r
          ∧ t.tx.product[i] = if t.holdWanted r then some (.announce t.settings.leaseLife r) else none)
      ∧ (∀ i : Fin 4, (t.adm.holds[i]).refresh = .stopped
          ∧ (t.holdRes i = none → (t.adm.holds[i]).holding = false ∧ t.tx.product[i] = none))
      ∧ t.updates.holdOff = false ∧ t.adm.outstanding = t.updates.ops.length
      ∧ t.updates.ops.length = min 2 (t.updates.ops ++ t.adm.waiting).length
      ∧ (t.updates.ops ++ t.adm.waiting).Perm ((List.finRange 4).filterMap fun i => (t.holdRes i).bind fun r =>
          if t.holdWanted r then some (.ownInsert .product [⟨r, 255⟩] d.settings.node .held) else none)
      ∧ t.adm.urgency = 0 ∧ t.adm.aging = 0 ∧ t.adm.last = none ∧ t.adm.framePlaced = false ∧ t.adm.granting = false
      ∧ t.adm.evalReq = none ∧ t.adm.wanted = false ∧ t.adm.wantedSettle = false
      ∧ t.adm.settle = .stopped ∧ t.adm.lapse = .stopped ∧ t.adm.refresh = .stopped ∧ t.adm.guard = .stopped
      ∧ t.tx.own = none ∧ t.tx.status = none ∧ t.tx.statusSuspend = none ∧ t.tx.copyFrom = none
      ∧ t.tx.turn = .b ∧ t.tx.turnCount = 0 ∧ t.tx.holdBack = .stopped ∧ (∀ x : SlotId, t.tx.marks.get x = false)
      ∧ (∀ x : Input, (t.port.line x).level = (s.port.line x).level
          ∧ (x ≠ .reset → (t.port.line x).debounced = (s.port.line x).level ∧ (t.port.line x).timer = .stopped))
      ∧ t.port.exchange = .idle ∧ t.port.samplePeriod = .from d.settings.sampleMs ∧ t.port.requestNumber = 255
      ∧ t.port.replyTimer = .stopped ∧ t.port.absent = 0 ∧ t.port.silent = false
      ∧ (∀ f : Sticky, t.flag f = true ↔
          f = .clamped ∧ d.clamped = true ∨ f = .recipeUnusable ∧ d.unusable = true
            ∨ f = .chainIgnored ∧ d.chainIgnored = true)
      ∧ t.log.renewal = 0 ∧ t.log.queue = [] ∧ t.log.comp = none ∧ t.log.period = .from d.settings.statusMs
      ∧ t.log.nextFragment = 0 ∧ t.log.dropped = 0 ∧ t.log.carried = 0

/-- The uptime counter counts a second, wrapping past 2^32 − 1; and a change of a line's level starts its stability
timer from 0 where the level departs from the debounced state, stops it where it returns, and touches no other line
(R125, R127, R182). That the second passes whenever the command is sent is the model's choice: log entry 3. -/
def Obligations.UptimeAndLineLevels : Prop :=
  (∀ s : State, s.loader.phase = .running →
    ∃ t, exec .uptimeTick s = .next t ∧ Untouched [.loader] s t
      ∧ t.loader = { s.loader with uptime := (s.loader.uptime + 1) % 2 ^ 32, uptimeMs := 0 }) ∧
  (∀ (s : State) (x : Input) (active : Bool), s.loader.phase = .running ∨ x = .reset →
    ∃ t, exec (.inputLevelChange x active) s = .next t ∧ Untouched [.port] s t
      ∧ (∀ y, y ≠ x → t.port.line y = s.port.line y)
      ∧ SamePort { s.port with req := t.port.req, confirm := t.port.confirm, stop := t.port.stop, prod := t.port.prod,
                               reset := t.port.reset } t.port
      ∧ t.port.line x =
          if (s.port.line x).level = active then s.port.line x
          else ⟨active, (s.port.line x).debounced, if active = (s.port.line x).debounced then .stopped else .from 0⟩)

/-! ### The list controller -/

/-- An announcement that is not discarded: the owner's entry of that role stands with the announced state, demand,
key and life on each listed resource, while room lasts, an entry that stood there already at the peer limit too; for
role CIP it leaves every other resource; no other entry moves. Without room for a first entry nothing is inserted,
the resource is marked incomplete, and VIEW_INCOMPLETE is set. OVERCOMMIT is set where an entry is new or changed in
state, demand or key on a resource whose running demands and held capacities exceed its capacity, and only there.
The verdict on the resources listed or left is acted on by a run that stands, and a step that waits, claims or is to
run on one of them has an evaluation requested where one is possible (R5, R6, R8, R10 to R13, R21, R30, R32, R45,
R79). That the row takes the head of the update queue whole, and that a shed HOLD step waits in HOLD_WAIT without a
request, are the model's choices: log entries 5 and 32. -/
def Obligations.AnnouncementsUpdateTheBoard : Prop :=
  ∀ (c : Instr) (s : State) (a : Announcement) (rest : List Op) (listed : List Pair),
    (c = .applyAnnouncementCip ∧ a.role = .cip ∨ c = .applyAnnouncementProduct ∧ a.role = .product) →
    s.updates.ops = .announce a :: rest → s.Ranked → s.board.Accounted →
    listed = listedPairs s.settings.capacity a.role [] a.pairs →
    ∃ t, exec c s = .next t ∧ Untouched boardReach s t ∧ rest <+: t.updates.ops
      ∧ (s.adm.own = .none → Untouched [.board, .updates, .log] s t ∧ t.updates.ops = rest)
      ∧ t.board.inhibit = s.board.inhibit
      ∧ (if a.owner = 0 ∨ a.owner = s.settings.node ∨ a.state = .held ∧ 63 < a.key ∨ a.state ≠ .held ∧ a.key < 65
            ∨ a.life = 0 ∨ a.pairs = [] then t.board = s.board ∧ t.flag .overcommit = s.flag .overcommit
        else
          (t.flag .overcommit = true ↔ s.flag .overcommit = true ∨
            ∃ p ∈ listed, ∃ e, t.board.find p.res a.owner a.role = some e
              ∧ e.changedFrom (s.board.find p.res a.owner a.role)
              ∧ overfull s.settings.capacity[p.res] t.board.lists[p.res])
          ∧ (∀ r : Res, (t.board.lists[r]).filter (fun e => decide (¬(e.owner = a.owner ∧ e.role = a.role)))
              = (s.board.lists[r]).filter (fun e => decide (¬(e.owner = a.owner ∧ e.role = a.role))))
          ∧ (∀ r : Res, (∀ p ∈ listed, p.res ≠ r) →
              (if a.role = .cip then t.board.find r a.owner .cip = none else t.board.lists[r] = s.board.lists[r])
              ∧ t.board.incomplete[r] = s.board.incomplete[r])
          ∧ (∀ p ∈ listed, 7 + listed.length ≤ s.board.free.length ∨ (s.board.find p.res a.owner a.role).isSome = true →
              t.board.incomplete[p.res] = s.board.incomplete[p.res]
              ∧ ∃ e, t.board.find p.res a.owner a.role = some e ∧ e.state = a.state ∧ e.key = a.key ∧ e.own = false
                ∧ e.demand = (if a.role = .cip then some p.demand else none)
                ∧ e.life = some ⟨if a.state = .claiming then a.life + 20 else a.life, 0⟩)
          ∧ (s.board.free.length ≤ 7 → (∀ r : Res, s.board.find r a.owner a.role = none) →
              t.board.lists = s.board.lists
              ∧ (∀ p ∈ listed, t.board.incomplete[p.res] = true ∧ t.board.incompleteMs[p.res] = 0)
              ∧ (listed ≠ [] → t.flag .viewIncomplete = true))
          ∧ (∀ touched : List Res,
              (∀ r, r ∈ touched ↔ (∃ p ∈ listed, p.res = r) ∨ a.role = .cip ∧ (s.board.find r a.owner .cip).isSome = true) →
              (s.RunStands → VerdictActed s t (verdictFor s.settings.capacity t.board touched))
              ∧ (s.adm.own = .waiting ∨ s.adm.own = .claiming ∨ s.adm.own = .runPending → s.canEvaluate = true →
                  (∃ p ∈ s.ownPairs, p.res ∈ touched) → t.adm.evalReq.isSome = true)))

/-- A RELEASE operation takes its owner's entries of the role off the named resources, an own remove the own ones, an
expiry the one due entry, with PEER_LAPSED where it was RUNNING; freed entries join the tail of the free list, and none
of the three makes the overcommit check. An entry whose life is above 0, as an announcement taken first leaves it, does
not expire (R3, R14, R15, R17, R21). That a release or an own remove takes the head of the update queue whole is the
model's choice: log entry 5. -/
def Obligations.EntriesLeaveTheBoard : Prop :=
  (∀ (s : State) (owner : Nat) (role : Role) (set : Word16) (rest : List Op),
    s.updates.ops = .release owner role set :: rest →
    ∃ t, exec .applyRelease s = .next t ∧ Untouched boardReach s t ∧ rest <+: t.updates.ops
      ∧ (s.adm.own = .none → Untouched [.board, .updates] s t ∧ t.updates.ops = rest)
      ∧ t.board.inhibit = s.board.inhibit ∧ t.board.incomplete = s.board.incomplete ∧ s.board.free <+: t.board.free
      ∧ t.flag .overcommit = s.flag .overcommit
      ∧ ∀ r : Res, t.board.lists[r] =
          if owner ≠ 0 ∧ owner ≠ s.settings.node ∧ set.getLsbD r.val = true ∧ s.settings.capacity[r] ≠ 0
          then (s.board.lists[r]).filter fun e => decide (¬(e.owner = owner ∧ e.role = role)) else s.board.lists[r]) ∧
  (∀ (s : State) (role : Role) (rs : List Res) (rest : List Op), s.updates.ops = .ownRemove role rs :: rest →
    ∃ t, exec .ownRemove s = .next t ∧ Untouched boardReach s t ∧ rest <+: t.updates.ops
      ∧ (s.adm.own ≠ .running → Untouched [.board, .updates, .adm, .log] s t)
      ∧ t.board.inhibit = s.board.inhibit ∧ t.board.incomplete = s.board.incomplete ∧ s.board.free <+: t.board.free
      ∧ t.flag .overcommit = s.flag .overcommit
      ∧ ∀ r : Res, t.board.lists[r] =
          if r ∈ rs then (s.board.lists[r]).filter fun e => decide (¬(e.own = true ∧ e.role = role)) else s.board.lists[r]) ∧
  (∀ (s : State) (n : Fin 64) (r : Res) (e : Entry), s.board.Accounted → s.board.whereIs n = some (r, e) →
    e.life.map (·.units) = some 0 →
    ∃ t, exec (.entryExpiry n) s = .next t ∧ Untouched boardReach s t ∧ s.updates.ops <+: t.updates.ops
      ∧ (s.adm.own = .none → Untouched [.board, .log] s t)
      ∧ t.board.inhibit = s.board.inhibit ∧ t.board.incomplete = s.board.incomplete ∧ t.board.free = s.board.free ++ [n]
      ∧ (∀ q : Res, t.board.lists[q] =
          if q = r then (s.board.lists[q]).filter fun x => decide (x.num ≠ n) else s.board.lists[q])
      ∧ (e.state = .running → t.flag .peerLapsed = true) ∧ t.flag .overcommit = s.flag .overcommit) ∧
  (∀ (s : State) (n : Fin 64), (∀ r e, s.board.whereIs n = some (r, e) → e.life.map (·.units) ≠ some 0) →
    ∃ t, exec (.entryExpiry n) s = .next t ∧ Untouched [] s t)

/-- An INHIBIT or CLEAR operation sets or clears the flags of its set, absent resources included, and sets
INHIBIT_CHANGED; the incomplete timer's expiry at 8 s clears the flag of its resource, and nothing happens where an
insertion failure taken first has set the timer back; a step that waits, claims or is to run on a resource so named
has an evaluation requested where one is possible; entries stay (R1, R16, R20, R32). That an INHIBIT or CLEAR row
takes the head of the update queue whole is the model's choice: log entry 5. -/
def Obligations.BoardFlagsChange : Prop :=
  (∀ (s : State) (set : Word16) (rest : List Op) (value : Bool) (c : Instr),
    (value = true ∧ c = .inhibitOperation ∧ s.updates.ops = .inhibit set :: rest ∨
      value = false ∧ c = .clearOperation ∧ s.updates.ops = .clear set :: rest) →
    ∃ t, exec c s = .next t ∧ Untouched boardReach s t ∧ rest <+: t.updates.ops
      ∧ (s.adm.own = .none → Untouched [.board, .updates, .log] s t ∧ t.updates.ops = rest)
      ∧ t.board = { s.board with inhibit := t.board.inhibit } ∧ t.flag .inhibitChanged = true
      ∧ (∀ r : Res, t.board.inhibit[r] = if set.getLsbD r.val = true then value else s.board.inhibit[r])
      ∧ (s.adm.own = .waiting ∨ s.adm.own = .claiming ∨ s.adm.own = .runPending → s.canEvaluate = true →
          (∃ p ∈ s.ownPairs, set.getLsbD p.res.val = true) → t.adm.evalReq.isSome = true)) ∧
  (∀ (s : State) (r : Res), s.board.incomplete[r] = true → s.board.peerRoom = true → 8000 ≤ s.board.incompleteMs[r] →
    ∃ t, exec (.incompleteTimerExpiry r) s = .next t ∧ Untouched [.board, .updates, .adm, .log] s t
      ∧ t.board = { s.board with incomplete := t.board.incomplete, incompleteMs := t.board.incompleteMs }
      ∧ t.board.incomplete[r] = false ∧ t.board.incompleteMs[r] = 0
      ∧ (∀ q : Res, q ≠ r → t.board.incomplete[q] = s.board.incomplete[q] ∧ t.board.incompleteMs[q] = s.board.incompleteMs[q])
      ∧ (s.adm.own = .waiting ∨ s.adm.own = .claiming ∨ s.adm.own = .runPending → s.canEvaluate = true →
          (∃ p ∈ s.ownPairs, p.res = r) → t.adm.evalReq.isSome = true)) ∧
  (∀ (s : State) (r : Res), s.board.incompleteMs[r] < 8000 → ∃ t, exec (.incompleteTimerExpiry r) s = .next t ∧ Untouched [] s t)

/-- An own insert places an own entry with no life, or updates the one there, on each named resource that is
present; an own update gives the named own entries their new values; no other entry moves. The verdict of either on
a run that stands is acted on: ROUTE_TAKEN suspends the round, as after an own PRODUCT insert on a resource where
the own step runs, SHED begins a new attempt; and where an update has none, the granting one reports RUNNING.
OVERCOMMIT is set where an own entry is new or changed on a resource then overfull, and only there (R4, R5, R17,
R21, R22, R30, R41, R45, R53, R77, R79, R81). That the row takes the head of the update queue whole, and that a shed
HOLD step waits in HOLD_WAIT without a request, are the model's choices: log entries 5 and 32. -/
def Obligations.OwnEntriesPlaced : Prop :=
  ∀ (s : State) (role : Role) (pairs : List Pair) (key : Nat) (st : EntryState) (rest : List Op), s.Ranked →
    (pairs.map (·.res)).Nodup →
    (s.updates.ops = .ownInsert role pairs key st :: rest → pairs.length ≤ s.board.free.length →
      ∃ t, exec .ownInsert s = .next t ∧ Untouched boardReach s t ∧ rest <+: t.updates.ops
        ∧ (s.adm.own ≠ .running → Untouched [.board, .updates, .adm, .log] s t)
        ∧ (∀ r : Res, (t.board.lists[r]).filter (fun e => decide (¬(e.own = true ∧ e.role = role)))
            = (s.board.lists[r]).filter (fun e => decide (¬(e.own = true ∧ e.role = role))))
        ∧ (∀ r : Res, (∀ p ∈ pairs, p.res ≠ r) ∨ s.settings.capacity[r] = 0 → t.board.lists[r] = s.board.lists[r])
        ∧ (∀ p ∈ pairs, s.settings.capacity[p.res] ≠ 0 →
            ∃ e, t.board.findOwn p.res role = some e ∧ e.key = key ∧ e.state = st ∧ e.owner = s.settings.node ∧ e.life = none
              ∧ e.demand = if role = .cip then some p.demand else none)
        ∧ (t.flag .overcommit = true ↔ s.flag .overcommit = true ∨
            ∃ p ∈ pairs, ∃ e, t.board.findOwn p.res role = some e ∧ e.changedFrom (s.board.findOwn p.res role)
              ∧ overfull s.settings.capacity[p.res] t.board.lists[p.res])
        ∧ (s.RunStands → VerdictActed s t (verdictFor s.settings.capacity t.board (resourcesOf pairs))
          ∧ (role = .product → st = .held → (∃ p ∈ pairs, s.settings.capacity[p.res] ≠ 0
              ∧ ∃ e, s.board.findOwn p.res .cip = some e ∧ e.state = .running) → Suspended s t .routeTaken))) ∧
    (s.updates.ops = .ownUpdate role pairs key st :: rest →
      ∃ t, exec .ownUpdate s = .next t ∧ Untouched boardReach s t ∧ rest <+: t.updates.ops
        ∧ (s.adm.own ≠ .running → Untouched [.board, .updates, .adm, .log] s t)
        ∧ t.board.free = s.board.free
        ∧ (∀ r : Res, (t.board.lists[r]).filter (fun e => decide (¬(e.own = true ∧ e.role = role)))
            = (s.board.lists[r]).filter (fun e => decide (¬(e.own = true ∧ e.role = role))))
        ∧ (∀ p ∈ pairs, ∀ old, s.board.findOwn p.res role = some old →
            t.board.findOwn p.res role = some { old with
              key := key, state := st, demand := if role = .cip then some p.demand else none })
        ∧ (t.flag .overcommit = true ↔ s.flag .overcommit = true ∨
            ∃ p ∈ pairs, ∃ e, t.board.findOwn p.res role = some e ∧ e.changedFrom (s.board.findOwn p.res role)
              ∧ overfull s.settings.capacity[p.res] t.board.lists[p.res])
        ∧ (s.RunStands → VerdictActed s t (verdictFor s.settings.capacity t.board (resourcesOf pairs)) ∧
            (verdictFor s.settings.capacity t.board (resourcesOf pairs) = none → s.seq.state = .claiming →
              s.adm.granting = true → st = .running →
              t.seq.state = .running ∧ t.seq.stepTimer = .from 0 ∧ t.ver.mode = .burst ∧ t.adm.own = .running)))

/-! ### The admission unit -/

/-- The outcome of the requested evaluation, acted on in its own stay while evaluation is possible: WAITING claims
on PASS and else announces its WAIT, unless the last own frame delivered was a WAIT with the same key and pairs and
the slot is empty or holds a WAIT; CLAIMING runs on a PASS at the settle moment, stays on another, and yields on a
failure, as RUN-PENDING does. Any other outcome changes nothing beyond the request; evaluation is possible while the
node is ACTIVE and ENGAGED (R18, R26, R27, R32, R33, R36, R39, R40). The order of messages inside the step is the
model's choice: log entries 8 and 9. -/
def Obligations.EvaluationActedOn : Prop :=
  (∀ (s : State) (q : EvalReq) (rest : List Op) (fit : Fit), s.updates.ops = .evaluate :: rest → s.adm.evalReq = some q →
    s.adm.wanted = false → s.adm.own ≠ .running → fit = fitTest s.settings.capacity s.board →
    ∃ t, exec .evaluate s = .next t ∧ Untouched [.updates, .adm, .seq, .ver, .tx, .log] s t
      ∧ rest <+: t.updates.ops ∧ t.adm.evalReq = none ∧ t.adm.standing = s.adm.standing
      ∧ (if s.canEvaluate = true ∧ q.stay = s.adm.stay ∧ fit ≠ .empty then
          (s.adm.own = .none → t.adm.own = .none ∧ t.tx.own = s.tx.own ∧ t.seq = s.seq) ∧
          (s.adm.own = .waiting → fit = .pass →
            t.adm.own = .claiming ∧ t.tx.own = some (.announce .claim s.ownKey s.settings.lapseLife s.ownPairs)
            ∧ .ownUpdate .cip s.ownPairs s.ownKey .claiming ∈ t.updates.ops ++ t.adm.waiting
            ∧ (s.tagCurrent = true → s.seq.state = .waiting → t.seq.state = .claiming)) ∧
          (s.adm.own = .waiting → fit ≠ .pass → t.adm.own = .waiting ∧ t.seq = s.seq ∧ t.tx.own =
            if s.waitStands then s.tx.own else some (.announce .wait s.ownKey s.settings.leaseLife s.ownPairs)) ∧
          (s.adm.own = .claiming → fit = .pass → if q.settle = true
            then t.adm.own = .runPending ∧ t.adm.lapse = s.adm.lapse
              ∧ t.tx.own = some (.announce .run s.ownKey s.settings.leaseLife s.ownPairs)
            else t.adm.own = .claiming ∧ t.tx.own = s.tx.own ∧ t.seq = s.seq) ∧
          (s.adm.own = .runPending → fit = .pass → t.adm.own = .runPending ∧ t.tx.own = s.tx.own ∧ t.seq = s.seq) ∧
          (s.adm.own = .claiming ∨ s.adm.own = .runPending → fit ≠ .pass →
            t.adm.own = .waiting ∧ t.tx.own = some (.announce .wait s.ownKey s.settings.leaseLife s.ownPairs)
            ∧ .ownUpdate .cip s.ownPairs s.ownKey .waiting ∈ t.updates.ops ++ t.adm.waiting
            ∧ (s.tagCurrent = true → s.seq.state = .claiming → t.seq.state = .waiting))
        else t.adm.own = s.adm.own ∧ t.tx.own = s.tx.own ∧ t.seq = s.seq ∧ t.ver = s.ver)) ∧
  (∀ s : State,
    (s.canEvaluate = true ↔ s.adm.state = .active ∧ s.link.state = .engaged) ∧
    s.ownKey = 64 * (63 - s.adm.urgency) + s.settings.node ∧
    (s.ownPairs = match s.adm.standing with
      | some st => st.pairs
      | none => []) ∧
    (s.tagCurrent = true ↔ ∃ st, s.adm.standing = some st ∧ st.tag = s.seq.tag) ∧
    (s.waitStands = true ↔ (∃ life, s.adm.last = some (.announce .wait s.ownKey life s.ownPairs))
      ∧ (s.tx.own = none ∨ ∃ key life pairs, s.tx.own = some (.announce .wait key life pairs))))

/-- Aging, at its interval and not before, raises the urgency by one up to 62, with a better key for the own
entries, a WAIT where one has been delivered in this stay, and an evaluation; the learning time over, the node is
ACTIVE and a waiting step is evaluated (R27, R28, R31, R43, R48). That the learning time's expiry acts whatever its
count is the model's choice: log entry 3; that a WAIT has been delivered in this stay exactly while the refresh
timer runs is deduced: log entry 24. -/
def Obligations.AgingAndLearning : Prop :=
  (∀ s : State, s.adm.own = .waiting → s.adm.state = .active → s.onLine = true → s.adm.urgency ≤ 62 →
    s.settings.agingMs ≤ s.adm.aging →
    ∃ t, exec .agingExpiry s = .next t ∧ Untouched [.updates, .adm, .tx, .log] s t ∧ SameLog s.log t.log
      ∧ t.adm.aging = 0 ∧ t.adm.own = .waiting ∧ t.adm.standing = s.adm.standing
      ∧ (s.adm.urgency = 62 → t.adm = { s.adm with aging := 0 } ∧ t.tx.own = s.tx.own ∧ t.updates = s.updates)
      ∧ (s.adm.urgency < 62 → t.adm.urgency = s.adm.urgency + 1 ∧ t.ownKey + 64 = s.ownKey
          ∧ .ownUpdate .cip s.ownPairs t.ownKey .waiting ∈ t.updates.ops ++ t.adm.waiting
          ∧ (t.tx.own = if s.adm.refresh.on then some (.announce .wait t.ownKey s.settings.leaseLife s.ownPairs) else s.tx.own)
          ∧ (s.link.state = .engaged → t.adm.evalReq.isSome = true))) ∧
  (∀ s : State, s.adm.aging < s.settings.agingMs → ∃ t, exec .agingExpiry s = .next t ∧ Untouched [] s t) ∧
  (∀ s : State, s.adm.learning.on = true →
    ∃ t, exec .learningExpiry s = .next t ∧ Untouched [.updates, .adm, .log] s t ∧ SameLog s.log t.log
      ∧ t.adm.state = .active ∧ t.adm.learning = .stopped ∧ t.adm.own = s.adm.own ∧ t.adm.standing = s.adm.standing
      ∧ s.updates.ops <+: t.updates.ops
      ∧ (s.adm.own = .waiting → s.link.state = .engaged → t.adm.evalReq.isSome = true))

/-- The settle timer's end requests the settle evaluation, or yields where none is possible; the lapse takes a step
that has claimed and not run back to WAITING with CLAIM_LAPSED; the refresh places the WAIT or RUN again; and the
guard, at twice the refresh period and not before, stops a run whose RUN has not been delivered in time, suspending
the round with LEASE_LOST (R32, R39, R40, R42 to R45, R79). That settle, lapse and refresh act whatever their counts
is the model's choice, and the evaluation after a lapse in CLAIMING is deduced: log entries 3 and 11. -/
def Obligations.OwnStepTimers : Prop :=
  (∀ s : State, s.adm.settle.on = true → s.adm.own = .claiming →
    ∃ t, exec .settleExpiry s = .next t ∧ Untouched [.updates, .adm, .seq, .ver, .tx, .log] s t ∧ t.adm.settle = .stopped
      ∧ (if s.canEvaluate then t.adm.own = .claiming ∧ t.tx.own = s.tx.own ∧ t.seq = s.seq
            ∧ (s.adm.evalReq = none → t.adm.evalReq = some ⟨s.adm.stay, true⟩)
            ∧ (s.adm.evalReq ≠ none → t.adm.evalReq = s.adm.evalReq ∧ t.adm.wanted = true ∧ t.adm.wantedSettle = true)
          else t.adm.own = .waiting ∧ t.tx.own = some (.announce .wait s.ownKey s.settings.leaseLife s.ownPairs)
            ∧ (s.tagCurrent = true → s.seq.state = .claiming → t.seq.state = .waiting))) ∧
  (∀ s : State, s.adm.lapse.on = true → s.adm.own = .claiming ∨ s.adm.own = .runPending →
    ∃ t, exec .lapseExpiry s = .next t ∧ Untouched [.updates, .adm, .seq, .ver, .tx, .log] s t
      ∧ t.adm.own = .waiting ∧ t.adm.lapse = .stopped ∧ t.adm.standing = s.adm.standing ∧ t.flag .claimLapsed = true
      ∧ (t.tx.own = if s.adm.own = .claiming then some (.announce .wait s.ownKey s.settings.leaseLife s.ownPairs) else none)
      ∧ .ownUpdate .cip s.ownPairs s.ownKey .waiting ∈ t.updates.ops ++ t.adm.waiting
      ∧ (s.canEvaluate = true → t.adm.evalReq.isSome = true)
      ∧ (s.tagCurrent = true → s.seq.state = .claiming → t.seq.state = .waiting)) ∧
  (∀ s : State, s.adm.refresh.on = true → s.adm.own = .waiting ∨ s.adm.own = .running →
    ∃ t, exec .refreshExpiry s = .next t ∧ Untouched [.adm, .tx] s t
      ∧ t.adm = { s.adm with refresh := .from 0, framePlaced := true }
      ∧ t.tx.own = some (.announce (if s.adm.own = .waiting then .wait else .run) s.ownKey s.settings.leaseLife s.ownPairs)
      ∧ t.tx.product = s.tx.product ∧ t.tx.status = s.tx.status
      ∧ (s.tx.copyFrom = some .own → t.tx.marks.own = true)) ∧
  (∀ s : State, s.adm.guard.ms < s.settings.guardMs → ∃ t, exec .guardExpiry s = .next t ∧ Untouched [] s t) ∧
  (∀ s : State, s.adm.guard.on = true → s.settings.guardMs ≤ s.adm.guard.ms → s.adm.own = .running →
    ∃ t, exec .guardExpiry s = .next t ∧ Untouched [.updates, .adm, .seq, .ver, .tx, .log] s t ∧ t.adm.own = .none
      ∧ t.tx.own = some (.release (resourcesOf s.ownPairs))
      ∧ .ownRemove .cip (resourcesOf s.ownPairs) ∈ t.updates.ops ++ t.adm.waiting
      ∧ (s.tagCurrent = true → s.seq.state = .running → s.seq.attemptOpen = true → Suspended s t .leaseLost))

/-! ### Rounds and samples -/

/-- A round request is refused for a slot above 3, an unusable recipe, the slot of the round in progress, STOP active,
or a BARRED link; refusing sets REQUEST_REFUSED and nothing else. A request not refused while a round is in progress
joins the pending set, which keeps the larger of two end indexes for a slot; 20 to 254 count as 255 (R70 to R72). That
the REQ edge is taken while its stability timer runs, whatever its count, and that a frame is one command with the slots
of the others beside it, are the model's choices: log entries 4, 6 and 7. -/
def Obligations.RequestRefusedOrPending : Prop :=
  ∀ (c : Instr) (s : State) (slot endIndex : Nat), s.Asks c slot endIndex →
    (3 < slot ∨ (∃ i : Fin 4, i.val = slot ∧ ((s.store.slots[i]).usable = false ∨ s.seq.state ≠ .idle ∧ s.seq.slot = i))
        ∨ s.port.stop.debounced = true ∨ s.link.state = .barred →
      ∃ t, exec c s = .next t ∧ Untouched [.log, .port, .link] s t ∧ Arrived c s t
        ∧ t.log = s.log.setFlag .requestRefused) ∧
    (∀ i : Fin 4, i.val = slot → (s.store.slots[i]).usable = true → s.seq.state ≠ .idle → s.seq.slot ≠ i →
      s.port.stop.debounced = false → s.link.state ≠ .barred →
      ∃ t, exec c s = .next t ∧ Untouched [.seq, .port, .link] s t ∧ Arrived c s t
        ∧ t.seq = { s.seq with pendingSet := t.seq.pendingSet }
        ∧ ∀ j : Fin 4, t.seq.pendingSet[j] =
            if j = i then some (max ((s.seq.pendingSet[j]).getD 0) (if endIndex < 20 then endIndex else 255))
            else s.seq.pendingSet[j])

/-- A request accepted in IDLE begins a round at step 0: that of the lowest slot then pending, which is the request's own
where the pending set was empty; round number, slot, end index, start uptime, an empty record under composition, and the
first attempt (R72, R73, R76, R77, R99, R166). That the REQ edge is taken while its stability timer runs, whatever its
count, and that a frame is one command with the slots of the others beside it, are the model's choices: log entries 4, 6
and 7. -/
def Obligations.RequestBeginsRound : Prop :=
  ∀ (c : Instr) (s : State) (slot endIndex : Nat) (p i : Fin 4) (st : Step), s.Asks c slot endIndex → p.val = slot →
    (s.store.slots[p]).usable = true → s.port.stop.debounced = false → s.link.state ≠ .barred → s.seq.state = .idle →
    i = p ∨ s.seq.pendingSet[i] ≠ none → (∀ j : Fin 4, j < i → j ≠ p ∧ s.seq.pendingSet[j] = none) →
    st = (s.store.slots[i]).steps[(0 : Fin 20)] →
    ∃ t, exec c s = .next t ∧ Untouched roundReach s t ∧ Arrived c s t
      ∧ t.seq.slot = i
      ∧ t.seq.endIndex = max ((s.seq.pendingSet[i]).getD 0) (if i ≠ p then 0 else if endIndex < 20 then endIndex else 255)
      ∧ t.seq.roundNumber = (s.seq.roundNumber + 1) % 65536 ∧ t.seq.startUptime = s.loader.uptime
      ∧ t.seq.suspendCount = 0 ∧ t.seq.lastCause = none
      ∧ (∀ j : Fin 4, t.seq.pendingSet[j] =
          if j = i then none
          else if j = p then some (max ((s.seq.pendingSet[j]).getD 0) (if endIndex < 20 then endIndex else 255))
          else s.seq.pendingSet[j])
      ∧ FreshAttempt s t 0 st ∧ Entered t st (s.store.slots[i]).baseUrgency false
      ∧ t.ver.returned = 0 ∧ t.ver.recovered = 0 ∧ t.ver.drained = 0
      ∧ (∃ x, t.log.comp = some x ∧ x.complete = false ∧ x.record.roundNumber = t.seq.roundNumber ∧ x.record.slot = i
          ∧ x.record.endIndex = t.seq.endIndex ∧ x.record.results = [])
      ∧ t.log.queue = s.log.queue ∧ s.updates.ops <+: t.updates.ops

/-- CONFIRM lets a HOLD_WAIT step proceed in its attempt and resumes a suspended round at the same step as a new
attempt that does not wait for CONFIRM again; a RESUME frame resumes it as one that does; in any other state, and
CONFIRM at a BARRED node's suspended round, each changes nothing more (R77, R90, R92). That the CONFIRM edge is taken
while its stability timer runs, whatever its count, and that a frame is one command with the slots of the others beside
it, are the model's choices: log entries 4, 6 and 7. -/
def Obligations.ConfirmAndResume : Prop :=
  (∀ s : State, s.loader.phase = .running → s.port.confirm.rising = true →
    (s.seq.state = .holdWait → s.seq.stepTimer = .stopped → s.ver.mode = .standby →
      ∃ t, exec .confirmRisingEdge s = .next t ∧ Untouched roundReach s t ∧ Arrived .confirmRisingEdge s t
        ∧ t.seq.tag = s.seq.tag ∧ t.seq.pointer = s.seq.pointer ∧ Entered t s.curStep s.baseUrgency true) ∧
    (s.seq.state = .suspended → s.link.state ≠ .barred →
      ∃ t, exec .confirmRisingEdge s = .next t ∧ Untouched roundReach s t ∧ Arrived .confirmRisingEdge s t
        ∧ t.seq.suspendTimer = .stopped ∧ FreshAttempt s t s.seq.pointer s.curStep
        ∧ Entered t s.curStep s.baseUrgency true) ∧
    (s.seq.state ≠ .holdWait → s.seq.state ≠ .suspended ∨ s.link.state = .barred →
      ∃ t, exec .confirmRisingEdge s = .next t ∧ Untouched [.port] s t ∧ Arrived .confirmRisingEdge s t)) ∧
  (∀ (f : CommandFrame) (s : State), s.Reaches f 2 →
    (s.seq.state = .suspended →
      ∃ t, exec (.resume f) s = .next t ∧ Untouched roundReach s t ∧ Arrived (.resume f) s t
        ∧ t.seq.suspendTimer = .stopped ∧ FreshAttempt s t s.seq.pointer s.curStep
        ∧ Entered t s.curStep s.baseUrgency false) ∧
    (s.seq.state ≠ .suspended →
      ∃ t, exec (.resume f) s = .next t ∧ Untouched [.link] s t ∧ Arrived (.resume f) s t))

/-- ABORT, STOP becoming active, and the suspend limit end the round early: an open attempt ends CUT, the record gets
its outcome and header, own entries and the standing request are let go. Where the queue has room, or its head gives
way under DROP_OLDEST, the record joins the tail and the sequencer is IDLE; under HOLD_ROUNDS with a full queue it
stays CLOSING with the record waiting. Requests pending at an ABORT or the suspend limit stay pending in CLOSING; where
the record is taken, the lowest slot's is taken from IDLE and its round begins. With no round to end, ABORT changes
nothing more and STOP empties the pending set, refusing what it held; STOP becoming inactive changes its level alone
(R73, R91 to R95, R98, R126, R166 to R168). That the suspend limit acts whatever its count and the STOP change is taken
while its stability timer runs, and that a frame is one command with the slots of the others beside it, are the model's
choices: log entries 3, 4, 6 and 7. -/
def Obligations.RoundEndsEarly : Prop :=
  (∀ (c : Instr) (o : RoundOutcome) (s : State) (x : Composition), s.EndsRound c o → s.RoundFits → s.log.comp = some x →
    (c ≠ .stopChange → ∀ j : Fin 4, s.seq.pendingSet[j] = none) →
    ∃ t r, exec c s = .next t ∧ Untouched roundReach s t ∧ Arrived c s t
      ∧ (∀ j : Fin 4, t.seq.pendingSet[j] = none) ∧ t.seq.attemptOpen = false
      ∧ t.seq.stepTimer = .stopped ∧ t.seq.pauseTimer = .stopped ∧ t.seq.suspendTimer = .stopped
      ∧ t.ver = { s.ver with mode := .off }
      ∧ (if s.log.queue.length < 6 ∨ s.settings.policy = .dropOldest then
          t.seq.state = .idle ∧ t.log.comp = none
          ∧ t.log.queue = (if s.log.queue.length < 6 then s.log.queue else s.log.queue.tail) ++ [r]
          ∧ t.log.dropped = (if s.log.queue.length < 6 then s.log.dropped else min (s.log.dropped + 1) 255)
        else t.seq.state = .closing ∧ t.log.comp = some ⟨r, true⟩ ∧ t.log.queue = s.log.queue
          ∧ t.log.dropped = s.log.dropped)
      ∧ r.outcome = o ∧ r.roundNumber = x.record.roundNumber ∧ r.slot = x.record.slot ∧ r.endIndex = x.record.endIndex
      ∧ r.lastCause = s.seq.lastCause ∧ r.suspendCount = s.seq.suspendCount ∧ r.startUptime = s.seq.startUptime
      ∧ r.endUptime = s.loader.uptime ∧ r.recovered = min (s.ver.recovered / 36000) 65535
      ∧ r.drained = min (s.ver.drained / 36000) 65535
      ∧ (r.results = if s.seq.attemptOpen = true ∧ x.record.results.length < 32
          then x.record.results ++ [s.ver.result s.seq.pointer .cut] else x.record.results)
      ∧ (s.curStep.pairs ≠ [] → t.adm.standing = none ∧ (s.adm.standing ≠ none → t.adm.own = .none))) ∧
  (∀ (c : Instr) (o : RoundOutcome) (s : State) (x : Composition) (i : Fin 4) (e : Nat) (st : Step), s.EndsRound c o →
    s.RoundFits → s.log.comp = some x → c ≠ .stopChange → s.seq.pendingSet[i] = some e →
    (∀ j : Fin 4, j < i → s.seq.pendingSet[j] = none) → st = (s.store.slots[i]).steps[(0 : Fin 20)] →
    ∃ t r, exec c s = .next t ∧ Untouched roundReach s t ∧ Arrived c s t
      ∧ r.outcome = o ∧ r.roundNumber = x.record.roundNumber
      ∧ (r.results = if s.seq.attemptOpen = true ∧ x.record.results.length < 32
          then x.record.results ++ [s.ver.result s.seq.pointer .cut] else x.record.results)
      ∧ (if s.log.queue.length < 6 ∨ s.settings.policy = .dropOldest then
          t.log.queue = (if s.log.queue.length < 6 then s.log.queue else s.log.queue.tail) ++ [r]
          ∧ t.seq.slot = i ∧ t.seq.endIndex = e ∧ t.seq.roundNumber = (s.seq.roundNumber + 1) % 65536
          ∧ FreshAttempt s t 0 st ∧ Entered t st (s.store.slots[i]).baseUrgency false
          ∧ (∀ j : Fin 4, t.seq.pendingSet[j] = if j = i then none else s.seq.pendingSet[j])
          ∧ ∃ y, t.log.comp = some y ∧ y.complete = false ∧ y.record.roundNumber = t.seq.roundNumber ∧ y.record.results = []
        else t.seq.state = .closing ∧ t.seq.pendingSet = s.seq.pendingSet ∧ t.log.comp = some ⟨r, true⟩
          ∧ t.log.queue = s.log.queue)) ∧
  (∀ (f : CommandFrame) (s : State), s.Reaches f 1 → s.seq.state = .idle ∨ s.seq.state = .closing →
    ∃ t, exec (.abort f) s = .next t ∧ Untouched [.link] s t ∧ Arrived (.abort f) s t) ∧
  (∀ s : State, s.loader.phase = .running → s.port.stop.timer.on = true →
    (s.port.stop.level = false → ∃ t, exec .stopChange s = .next t ∧ Untouched [.port] s t ∧ Arrived .stopChange s t) ∧
    (s.port.stop.level = true → s.seq.state = .idle ∨ s.seq.state = .closing →
      ∃ t, exec .stopChange s = .next t ∧ Untouched [.port, .seq, .log] s t ∧ Arrived .stopChange s t
        ∧ t.seq = { s.seq with pendingSet := Vector.replicate 4 none }
        ∧ t.log = if ∃ j : Fin 4, s.seq.pendingSet[j] ≠ none then s.log.setFlag .requestRefused else s.log))

/-- A product-use line settles, and then each hold is on exactly while a line mapped to its resource is active, as
long as the link is ENGAGED or RETICENT, its slot being that of the lowest line mapped there and a line mapped to an
absent resource counting as mapped to none: a hold that begins places its own insert and its PRODUCT announcement,
one that ends its own remove and its RELEASE. The refresh places the announcement again and marks a copy of it on
the medium as replaced (R52 to R54, R126, R156). That the refresh acts whatever its count, and the line's change is
taken while its stability timer runs, are the model's choices: log entries 3 and 4. -/
def Obligations.ProductHoldsFollowTheLines : Prop :=
  (∀ (line : Fin 4) (s : State), s.loader.phase = .running → (s.port.prod[line]).timer.on = true →
    ∃ t, exec (.prodLineChange line) s = .next t ∧ Untouched [.updates, .adm, .port, .tx, .log] s t
      ∧ SamePort { s.port with prod := modAt s.port.prod line Line.settled } t.port
      ∧ SameLog s.log t.log ∧ s.updates.ops <+: t.updates.ops ∧ t.tx.own = s.tx.own ∧ t.tx.status = s.tx.status
      ∧ t.adm.own = s.adm.own ∧ t.adm.standing = s.adm.standing
      ∧ ∀ (i : Fin 4) (r : Res), t.holdRes i = some r →
          if s.onLine = true ∧ t.holdWanted r ≠ (s.adm.holds[i]).holding then
            (t.adm.holds[i]) = ⟨t.holdWanted r, .stopped⟩
            ∧ t.tx.product[i] = some (if t.holdWanted r then .announce s.settings.leaseLife r else .release r)
            ∧ (if t.holdWanted r then .ownInsert .product [⟨r, 255⟩] s.settings.node .held else .ownRemove .product [r])
                ∈ t.updates.ops ++ t.adm.waiting
          else t.adm.holds[i] = s.adm.holds[i] ∧ t.tx.product[i] = s.tx.product[i]) ∧
  (∀ (line : Fin 4) (r : Res) (s : State), s.holdRes line = some r → (s.adm.holds[line]).holding = true →
    (s.adm.holds[line]).refresh.on = true →
    ∃ t, exec (.productRefreshExpiry line) s = .next t ∧ Untouched [.adm, .tx] s t
      ∧ (t.adm.holds[line]) = ⟨true, .from 0⟩ ∧ t.adm = { s.adm with holds := t.adm.holds }
      ∧ t.tx.product[line] = some (.announce s.settings.leaseLife r)
      ∧ (∀ j : Fin 4, j ≠ line → t.adm.holds[j] = s.adm.holds[j] ∧ t.tx.product[j] = s.tx.product[j])
      ∧ t.tx.own = s.tx.own ∧ t.tx.status = s.tx.status
      ∧ (s.tx.copyFrom = some (.product line) → t.tx.marks.product[line] = true)) ∧
  (∀ (s : State) (r : Res),
    (∀ i : Fin 4, s.holdRes i = some r ↔ s.settings.prodMap[i] = some r ∧ s.settings.capacity[r] ≠ 0
      ∧ ∀ j : Fin 4, j < i → s.settings.prodMap[j] ≠ some r) ∧
    (s.holdWanted r = true ↔ ∃ j : Fin 4, s.settings.prodMap[j] = some r ∧ s.settings.capacity[r] ≠ 0
      ∧ (s.port.prod[j]).debounced = true))

/-- The sample exchange: a request at each period with the next request number; a valid reply with that number ends
it with its sample, each channel from its bytes, clamped, where its valid flag is set and absent where it is clear;
one with another number is discarded, and a damaged reply or the time limit ends it with every channel absent, the
absent count rising to the sensor-loss limit, at which the front-end is silent. Here the verifier reports nothing
(R96, R97, R108, R120 to R124, R189). That the sample period's and the reply timer's expiries act whatever their
counts is the model's choice: log entry 3. -/
def Obligations.SampleExchange : Prop :=
  (∀ (bytes : List Byte) (b : Nat → Nat), bytes.length = 12 → b = byteAt 0 bytes →
    (replyCheckGood bytes = true ↔ (checkBytes (bytes.take 10)).toNat = b 10 * 256 + b 11)
    ∧ (replySample bytes).tr = (if b 9 % 2 = 1
        then some (if 32768 ≤ b 1 * 256 + b 2 then 0 else min (b 1 * 256 + b 2) 1500) else none)
    ∧ (replySample bytes).fs = (if b 9 / 2 % 2 = 1 then some (min (b 3 * 256 + b 4) 1000) else none)
    ∧ (replySample bytes).fr = (if b 9 / 4 % 2 = 1 then some (min (b 5 * 256 + b 6) 1000) else none)
    ∧ (replySample bytes).kappa = (if b 9 / 8 % 2 = 1 then some (b 7 * 256 + b 8) else none)) ∧
  (∀ s : State, s.loader.phase = .running → s.port.exchange = .idle →
    ∃ t, exec .samplePeriodExpiry s = .next t ∧ Untouched [.port] s t
      ∧ SamePort { s.port with
            samplePeriod := .from s.settings.sampleMs, requestNumber := (s.port.requestNumber + 1) % 256
            request := some (0x5A, BitVec.ofNat 8 ((s.port.requestNumber + 1) % 256)), replyTimer := .from 0
            exchange := .awaiting } t.port) ∧
  (∀ (s : State) (c : Instr) (x : Sample) (n : Nat) (silent : Bool) (e : SampleEffect),
    s.loader.phase = .running → s.port.exchange = .awaiting →
    ((∃ bytes, c = .sampleReply bytes ∧ replyCheckGood bytes = true ∧ byteAt 0 bytes 0 = s.port.requestNumber
        ∧ x = replySample bytes) ∧ n = 0 ∧ silent = false ∨
      (c = .replyTimeout ∨ ∃ bytes, c = .sampleReply bytes ∧ replyCheckGood bytes = false)
        ∧ x = ⟨none, none, none, none⟩ ∧ n = min (s.port.absent + 1) s.settings.sensorLimit
        ∧ silent = (s.port.silent || decide (n = s.settings.sensorLimit))) →
    e = s.ver.takeSample s.settings.sampleMs s.settings.sensorLimit s.curStep (s.convSet s.curStep) x →
    e.report = .nothing →
    ∃ t, exec c s = .next t ∧ Untouched [.ver, .port, .log] s t ∧ t.ver = e.ver ∧ t.ver.current.map (·.sample) = some x
      ∧ SamePort { s.port with exchange := .idle, replyTimer := .stopped, absent := n, silent := silent } t.port
      ∧ t.log = { s.log with flags := t.log.flags, renewal := t.log.renewal }
      ∧ (∀ f : Sticky, t.flag f =
          (s.flag f || silent && decide (f = .frontendSilent) || e.sensorAbsent && decide (f = .sensorAbsent)))) ∧
  (∀ (s : State) (bytes : List Byte), s.loader.phase = .running →
    s.port.exchange = .idle ∨ replyCheckGood bytes = true ∧ byteAt 0 bytes 0 ≠ s.port.requestNumber →
    ∃ t, exec (.sampleReply bytes) s = .next t ∧ Untouched [] s t)

/-- A sample is in band where Tr and Fs are present and at least Tmin and Fmin and, where the step names a set, κ is
present and conc within Cmin to Cmax; the required channels are Tr, Fs and, with a set, κ. A sample in BURST of a
step that is not TIMED: in band it clears dropout and sensor loss and credits its weight up to the required credit,
where the burst is complete; out of band it adds to the dropout, and past the grace the credit is thrown away; a
required channel absent counts toward the sensor-loss limit, where the verifier halts. A TIMED step credits 16
whatever the sample, and completes in the same way. In every running mode the divert state is decided by the routing
and the marks, the volume goes to the side then decided, and the statistics follow Tr and conc; outside BURST no
credit moves and nothing is reported; OFF and STANDBY take the sample and do nothing more (R102 to R110, R112,
R114). -/
def Obligations.BurstSampleCredits : Prop :=
  (∀ (st : Step) (set : Option ConvSet) (x : Sample),
    (inBand st (compute set x) = true ↔ st.BandMet set x) ∧ (requiredPresent st x = true ↔ st.ChannelsMet x)) ∧
  (∀ (ms limit : Nat) (st : Step) (set : Option ConvSet) (x : Sample) (v : Verifier) (e : SampleEffect),
    v.mode = .burst → e = v.takeSample ms limit st set x →
    (st.timed = false → inBand st (compute set x) = true →
      e.ver.sensorLoss = 0 ∧ e.ver.dropout = 0 ∧ e.sensorAbsent = false ∧ e.ver.restarts = v.restarts
      ∧ e.ver.credit = min (v.credit + weight st (x.tr.getD 0)) v.required
      ∧ (if e.ver.credit = v.required then e.report = .burstComplete ∧ e.ver.mode = .burstDone
          else e.report = .nothing ∧ e.ver.mode = .burst)) ∧
    (st.timed = false → inBand st (compute set x) = false →
      (if st.grace < v.dropout + 1 then
          e.ver.credit = 0 ∧ e.ver.dropout = 0 ∧ e.ver.restarts = min (v.restarts + 1) 255
        else e.ver.credit = v.credit ∧ e.ver.dropout = v.dropout + 1 ∧ e.ver.restarts = v.restarts)
      ∧ (if requiredPresent st x = true then
          e.ver.sensorLoss = 0 ∧ e.report = .nothing ∧ e.ver.mode = .burst ∧ e.sensorAbsent = false
        else e.ver.sensorLoss = v.sensorLoss + 1 ∧ e.sensorAbsent = true
          ∧ (if limit ≤ v.sensorLoss + 1 then e.report = .sensorLost ∧ e.ver.mode = .halted
            else e.report = .nothing ∧ e.ver.mode = .burst))) ∧
    (st.timed = true → e.ver.credit = min (v.credit + 16) v.required ∧ e.ver.dropout = v.dropout
      ∧ e.ver.sensorLoss = v.sensorLoss ∧ e.ver.restarts = v.restarts ∧ e.sensorAbsent = false
      ∧ (if e.ver.credit = v.required then e.report = .burstComplete ∧ e.ver.mode = .burstDone
          else e.report = .nothing ∧ e.ver.mode = .burst))) ∧
  (∀ (ms limit : Nat) (st : Step) (set : Option ConvSet) (x : Sample) (v : Verifier) (e : SampleEffect),
    v.mode = .burst ∨ v.mode = .burstDone ∨ v.mode = .pause ∨ v.mode = .halted → e = v.takeSample ms limit st set x →
    (st.routing = .drain → e.ver.divert = .drain) ∧ (st.routing = .recover → e.ver.divert = .recover) ∧
    (st.routing = .divert → ∀ k, set = some k →
      (∀ conc, (compute set x).conc = some conc → e.ver.divert =
        if v.divert = .drain then (if k.recover ≤ conc then .recover else .drain)
        else if conc < k.drain then .drain else .recover) ∧
      ((compute set x).conc = none → e.ver.divert = v.divert)) ∧
    (∀ fr, x.fr = some fr → v.returned + fr * ms < 2 ^ 40 →
      e.ver.returned = v.returned + fr * ms
      ∧ (if e.ver.divert = .recover then e.ver.recovered = v.recovered + fr * ms ∧ e.ver.drained = v.drained
        else e.ver.drained = v.drained + fr * ms ∧ e.ver.recovered = v.recovered)) ∧
    (x.fr = none ∨ (∃ fr, x.fr = some fr ∧ 2 ^ 40 ≤ v.returned + fr * ms) →
      e.ver.returned = v.returned ∧ e.ver.recovered = v.recovered ∧ e.ver.drained = v.drained) ∧
    (∀ tr, x.tr = some tr → e.ver.minTr = some (min (v.minTr.getD tr) tr) ∧ e.ver.maxTr = some (max (v.maxTr.getD tr) tr)) ∧
    (x.tr = none → e.ver.minTr = v.minTr ∧ e.ver.maxTr = v.maxTr) ∧
    (∀ conc, (compute set x).conc = some conc → e.ver.peak = some (max (v.peak.getD conc) conc)) ∧
    ((compute set x).conc = none → e.ver.peak = v.peak) ∧
    (v.mode ≠ .burst → e.report = .nothing ∧ e.sensorAbsent = false ∧ e.ver.mode = v.mode ∧ e.ver.credit = v.credit
      ∧ e.ver.dropout = v.dropout ∧ e.ver.restarts = v.restarts
      ∧ e.ver.sensorLoss = if v.mode = .pause ∧ requiredPresent st x = true then 0 else v.sensorLoss) ∧
    e.ver.required = v.required ∧ e.ver.waitMs = v.waitMs ∧ e.ver.runMs = v.runMs ∧ e.ver.reps = v.reps) ∧
  (∀ (ms limit : Nat) (st : Step) (set : Option ConvSet) (x : Sample) (v : Verifier), v.mode = .off ∨ v.mode = .standby →
    v.takeSample ms limit st set x = ⟨{ v with current := some ⟨x, none, none⟩ }, .nothing, false⟩)

/-- What the round does with the reports of a sample while RUNNING in BURST, whether the exchange ended with a valid
reply, a damaged one or the time limit: SENSOR_LOST suspends it; a burst complete with repeats left begins the
pause, or the next burst where the step has none; with none left the attempt ends DONE, and at the last index, the
lower of the final index and the end index, the round ends COMPLETE, else the next step is entered; chained, it
stays RUNNING under its grant, a RUN placed at once. SENSOR_ABSENT and FRONTEND_SILENT are set where the sample and
the silence ask for it (R47, R82 to R86, R88, R94, R108, R117, R123, R124). That the reply timer's expiry acts
whatever its count is the model's choice: log entry 3. -/
def Obligations.SampleReportsMoveTheRound : Prop :=
  ∀ (s : State) (c : Instr) (x : Sample) (n : Nat) (silent : Bool) (e : SampleEffect),
    s.loader.phase = .running → s.port.exchange = .awaiting → s.EndsExchange c x n silent →
    e = s.ver.takeSample s.settings.sampleMs s.settings.sensorLimit s.curStep (s.convSet s.curStep) x →
    s.seq.state = .running → s.seq.phase = .burst → s.RoundFits →
    ∃ t, exec c s = .next t ∧ Untouched roundReach s t
      ∧ SamePort { s.port with exchange := .idle, replyTimer := .stopped, absent := n, silent := silent } t.port
      ∧ (e.sensorAbsent = true → t.flag .sensorAbsent = true) ∧ (silent = true → t.flag .frontendSilent = true)
      ∧ (e.report = .sensorLost → Suspended s t .sensorLost
          ∧ t.log.comp = s.log.comp.map fun x => { x with record := x.record.addResult (e.ver.result s.seq.pointer .failedSensor) })
      ∧ (e.report = .burstComplete → 1 < s.seq.repeats → 0 < s.curStep.pauseTime →
          t.seq = { s.seq with repeats := s.seq.repeats - 1, phase := .pause, pauseTimer := .from (s.curStep.pauseTime * 1000) }
          ∧ t.ver = { e.ver with mode := .pause, reps := e.ver.reps + 1, credit := 0, dropout := 0 })
      ∧ (e.report = .burstComplete → 1 < s.seq.repeats → s.curStep.pauseTime = 0 →
          t.seq = { s.seq with repeats := s.seq.repeats - 1 }
          ∧ t.ver = { e.ver with mode := .burst, reps := e.ver.reps + 1, credit := 0, dropout := 0 })
      ∧ (e.report = .burstComplete → s.seq.repeats ≤ 1 → s.seq.pointer.val = s.lastIndex → s.log.queue.length < 6 →
          (∀ j : Fin 4, s.seq.pendingSet[j] = none) →
          t.seq.state = .idle ∧ t.ver.mode = .off ∧ ∃ r x, s.log.comp = some x ∧ t.log.queue = s.log.queue ++ [r]
            ∧ r.outcome = .complete
            ∧ r.results = (x.record.addResult ({ e.ver with reps := e.ver.reps + 1 }.result s.seq.pointer .done)).results
            ∧ (s.curStep.mark = true → t.flag .stepMark = true))
      ∧ (e.report = .burstComplete → s.seq.repeats ≤ 1 → ∀ next : Fin 20, next.val = s.seq.pointer.val + 1 →
          s.seq.pointer.val ≠ s.lastIndex → (s.stepAt next).chain = false →
          FreshAttempt s t next (s.stepAt next) ∧ Entered t (s.stepAt next) s.baseUrgency false
          ∧ t.log.comp = s.log.comp.map fun x =>
              { x with record := x.record.addResult ({ e.ver with reps := e.ver.reps + 1 }.result s.seq.pointer .done) })
      ∧ (e.report = .burstComplete → s.seq.repeats ≤ 1 → ∀ next : Fin 20, next.val = s.seq.pointer.val + 1 →
          s.seq.pointer.val ≠ s.lastIndex → (s.stepAt next).chain = true → s.curStep.pairs ≠ [] → s.adm.own = .running →
          FreshAttempt s t next (s.stepAt next) ∧ t.seq.state = .running ∧ t.seq.stepTimer = .from 0 ∧ t.ver.mode = .burst
          ∧ t.adm.own = .running ∧ t.adm.standing = some ⟨(s.stepAt next).pairs, (s.seq.tag + 1) % 256⟩
          ∧ t.adm.urgency = s.baseUrgency
          ∧ t.tx.own = some (.announce .run (64 * (63 - s.baseUrgency) + s.settings.node) s.settings.leaseLife
              (s.stepAt next).pairs))
      ∧ s.lastIndex = min ((s.store.slots[s.seq.slot]).finalIndex.val) s.seq.endIndex
      ∧ ∀ (v : Verifier) (o : AttemptOutcome), v.result s.seq.pointer o =
          { step := s.seq.pointer, outcome := o, reps := v.reps, restarts := v.restarts
            waitSeconds := min (v.waitMs / 1000) 65535, runSeconds := min (v.runMs / 1000) 65535
            minTr := v.minTr, maxTr := v.maxTr, peak := v.peak }

/-- The step timer at the step's limit, and not before, suspends the round with STEP_TIME, the attempt ending
FAILED_TIME; the end of a pause is the next burst (R81 to R83, R88). That the pause timer's expiry acts whatever its
count is the model's choice: log entry 3. -/
def Obligations.StepAndPauseTimers : Prop :=
  (∀ s : State, s.seq.stepTimer.ms < s.curStep.limit * 1000 → ∃ t, exec .stepTimerExpiry s = .next t ∧ Untouched [] s t) ∧
  (∀ s : State, s.seq.stepTimer.on = true → s.curStep.limit * 1000 ≤ s.seq.stepTimer.ms → s.seq.state = .running →
    s.seq.attemptOpen = true →
    ∃ t, exec .stepTimerExpiry s = .next t ∧ Untouched roundReach s t ∧ SamePort s.port t.port ∧ Suspended s t .stepTime
      ∧ t.ver = { s.ver with mode := .off }
      ∧ t.log.comp = s.log.comp.map fun x => { x with record := x.record.addResult (s.ver.result s.seq.pointer .failedTime) }) ∧
  (∀ s : State, s.seq.pauseTimer.on = true → s.seq.state = .running → s.seq.phase = .pause →
    ∃ t, exec .pauseTimerExpiry s = .next t ∧ Untouched [.seq, .ver] s t
      ∧ t.seq = { s.seq with phase := .burst, pauseTimer := .stopped } ∧ t.ver = { s.ver with mode := .burst })

/-! ### The hall link and what it hands on -/

/-- An ANNOUNCE, RELEASE, INHIBIT or CLEAR heard becomes one operation at the tail of the update queue, which at the
twelfth begins hold-off; one answered before hold-off began is placed all the same, and a malformed one is delivered
and forgotten. The operation carries what the payload holds, by R150 to R152, and a COMMAND addresses the node by
its number or one of its groups. A STATUS, a RECORD, a frame of kind 7 to 15, and a COMMAND that does not address
this node, in hold-off too, and a COMMAND to this node of an unknown code or cut short, are handed to no block. Each
is answered ACCEPT and lowers REC. In RETICENT the same is heard, and where REC falls with both counts then below 80
the node is ENGAGED again, a waiting step having an evaluation requested where the node is ACTIVE; a COMMAND that
addresses a node so returning acts as at a node that is ENGAGED already and has requested that evaluation (R8, R9,
R48, R138, R142, R143, R149 to R154). That a frame is one command with the slots of the others beside it is the
model's choice: log entries 6 and 7. -/
def Obligations.HeardFramesHandedOn : Prop :=
  (∀ (c : Instr) (kind : Nat) (f : RxFrame) (op : Option Op) (s : State),
    (kind = 3 ∧ c = .announce f ∧ op = (readAnnounce f).map .announce ∨ kind = 2 ∧ c = .release f ∧ op = readRelease f ∨
      kind = 0 ∧ c = .inhibit f ∧ op = (readInhibitSet f).map .inhibit ∨
      kind = 1 ∧ c = .clear f ∧ op = (readInhibitSet f).map .clear) →
    s.Hears kind f →
    ∃ t, exec c s = .next t ∧ Untouched [.updates, .link, .log] s t
      ∧ t.link = { s.link.heard with holdOffMoved := t.updates.holdOff && !s.updates.holdOff }
      ∧ t.updates.ops = s.updates.ops ++ op.toList
      ∧ t.updates.holdOff = (s.updates.holdOff || op.isSome && decide (11 ≤ s.updates.ops.length))
      ∧ t.log = if t.updates.holdOff && !s.updates.holdOff then s.log.setFlag .holdoffAsserted else s.log) ∧
  (∀ (c : Instr) (kind : Nat) (f : RxFrame) (s : State),
    (kind = 5 ∧ c = .status f ∨ kind = 6 ∧ c = .record f ∨ (∃ k : Fin 9, kind = 7 + k.val ∧ c = .unknownKind k f) ∨
      kind = 4 ∧ commandAddressed s.settings.node s.settings.groups f = false ∧ (c = .commandNotAddressed f ∨
        ∃ k, c = .request k ∧ f = commandRx k 0 ∨ c = .abort k ∧ f = commandRx k 1 ∨ c = .resume k ∧ f = commandRx k 2
          ∨ c = .report k ∧ f = commandRx k 3))
        ∧ (∃ b, ({ s with updates := { s.updates with holdOff := b } } : State).Hears kind f) ∨
      kind = 4 ∧ c = .commandNotAddressed f ∧ (f.payload.length < 4 ∨ 3 < byteAt 0 f.payload 1) ∧ s.Hears kind f →
    ∃ t, exec c s = .next t ∧ Untouched [.link] s t ∧ t.link = s.link.heard) ∧
  (∀ (c : Instr) (kind : Nat) (f : RxFrame) (op : Option Op) (s : State),
    (kind = 3 ∧ c = .announce f ∧ op = (readAnnounce f).map .announce ∨ kind = 2 ∧ c = .release f ∧ op = readRelease f ∨
      kind = 0 ∧ c = .inhibit f ∧ op = (readInhibitSet f).map .inhibit ∨
      kind = 1 ∧ c = .clear f ∧ op = (readInhibitSet f).map .clear ∨
      (kind = 5 ∧ c = .status f ∨ kind = 6 ∧ c = .record f ∨ ∃ k : Fin 9, kind = 7 + k.val ∧ c = .unknownKind k f) ∧ op = none) →
    s.HearsReticent kind f →
    ∃ t, exec c s = .next t ∧ t.link.answer = some .accept ∧ t.link.role = .none ∧ t.link.tec = s.link.tec
      ∧ t.link.recCount = s.link.recCount - 1 ∧ (∀ o, op = some o → o ∈ t.updates.ops)
      ∧ (if 0 < s.link.recCount ∧ s.link.recCount ≤ 80 ∧ s.link.tec < 80 then
          t.link.state = .engaged ∧ Untouched [.updates, .adm, .link, .log] s t ∧ SameLog s.log t.log
          ∧ s.updates.ops <+: t.updates.ops ∧ t.adm.own = s.adm.own
          ∧ (s.adm.own = .waiting → s.adm.state = .active → t.adm.evalReq.isSome = true)
        else t.link.state = .reticent ∧ Untouched [.updates, .link, .log] s t ∧ SameLog s.log t.log
          ∧ t.updates.ops = s.updates.ops ++ op.toList)) ∧
  (∀ (c : Instr) (f : RxFrame) (s u : State),
    (∃ k, c = .request k ∧ f = commandRx k 0 ∨ c = .abort k ∧ f = commandRx k 1 ∨ c = .resume k ∧ f = commandRx k 2
      ∨ c = .report k ∧ f = commandRx k 3) →
    s.HearsReticent 4 f → 0 < s.link.recCount → s.link.recCount ≤ 80 → s.link.tec < 80 →
    u = { s with link := { s.link with state := .engaged } } →
    u.Hears 4 f ∧ (s.adm.own ≠ .waiting → exec c s = exec c u)
      ∧ (s.adm.own = .waiting → s.updates.ops.length < 11 → exec c s = exec c (u.requestEval false))) ∧
  (∀ (f : RxFrame) (b : Nat → Nat), b = byteAt 0 f.payload →
    (readAnnounce f = if 3 ≤ f.payload.length ∧ b 0 ≤ 3 ∧ b 2 ≤ 3 ∧ 3 + 2 * b 2 ≤ f.payload.length then
        some { owner := f.low.toNat % 64, key := f.low.toNat, life := b 1
               state := if b 0 = 0 then .waiting else if b 0 = 1 then .claiming else if b 0 = 2 then .running else .held
               pairs := (List.range (b 2)).map fun k => ⟨b (3 + 2 * k), b (4 + 2 * k)⟩ }
      else none) ∧
    (readRelease f = if 3 ≤ f.payload.length ∧ b 0 ≤ 1 then
        some (.release f.low.toNat (if b 0 = 0 then .cip else .product) (BitVec.ofNat 16 (b 1 * 256 + b 2)))
      else none) ∧
    (readInhibitSet f = if 2 ≤ f.payload.length then some (BitVec.ofNat 16 (b 0 * 256 + b 1)) else none) ∧
    ∀ (node : Nat) (groups : Byte),
      (commandAddressed node groups f = true ↔ 1 ≤ f.payload.length ∧ targetAddresses node groups (b 0) = true) ∧
      ∀ target : Nat, targetAddresses node groups target = true ↔
        1 ≤ target ∧ target ≤ 63 ∧ target = node ∨ 64 ≤ target ∧ target ≤ 71 ∧ groups.getLsbD (target - 64) = true)

/-- REPORT and the status period make a STATUS: the bytes of the state at that moment in the status slot, beside
them the time that the suspend timer has run, every flag standing in the carried set, every renewal mark clear; the
period starts again. No other slot changes (R89, R153, R156, R171, R172). That the suspend time stands beside the 12
bytes, that the status period's expiry acts whatever its count, and that a frame is one command with the slots of
the others beside it, are the model's choices: log entries 37, 3, 6 and 7. -/
def Obligations.ReportAndPeriodMakeStatus : Prop :=
  (∀ (f : CommandFrame) (s : State), s.Reaches f 3 →
    ∃ t, exec (.report f) s = .next t ∧ Untouched [.link, .tx, .log] s t ∧ t.link = s.link.heard
      ∧ SameTx { s.tx with
            status := some (statusBytes { s with link := s.link.heard }), statusSuspend := some s.seq.suspendTimer.ms } t.tx
      ∧ (s.tx.copyFrom = some .status → t.tx.marks.status = true)
      ∧ t.log = { s.log with carried := s.log.flags, renewal := 0 }) ∧
  (∀ s : State, s.loader.phase = .running →
    ∃ t, exec .statusPeriodExpiry s = .next t ∧ Untouched [.tx, .log] s t
      ∧ SameTx { s.tx with status := some (statusBytes s), statusSuspend := some s.seq.suspendTimer.ms } t.tx
      ∧ (s.tx.copyFrom = some .status → t.tx.marks.status = true)
      ∧ t.log = { s.log with carried := s.log.flags, renewal := 0, period := .from s.settings.statusMs })

/-- A frame that a receiver cannot take: a failed check is answered REJECT (a broken-off frame is not answered) and
raises REC, at 96 making the node RETICENT, whose claiming step yields, while DETACHED only restarts the quiet
timer; in hold-off when it answers, though hold-off may have ended since, what must be applied is answered HOLD and
left; and a delivered frame of kind 0 to 6 with this node's number bars the node, in ENGAGED, RETICENT and, where
the others accept it, DETACHED, its own step and holds let go (R9, R48, R49, R80, R137, R138, R142, R143, R145,
R147, R148). That a frame is one command with the slots of the others beside it is the model's choice: log entries 6
and 7. -/
def Obligations.ReceiverTurnsFramesAway : Prop :=
  (∀ (kind : Nat) (f : RxFrame), kind < 16 →
    (checkGood kind f = true ↔ f.payload.length ≤ 12
      ∧ f.check = frameCheck (BitVec.ofNat 16 (4096 * kind + f.low.toNat)) f.payload)
    ∧ senderNumber kind f = (if kind = 3 then some (f.low.toNat % 64) else if kind ≤ 6 then some f.low.toNat else none)) ∧
  (∀ (c : Instr) (s : State), c = .receivedFrameCheckFailed ∨ c = .frameBreakOff → s.loader.phase = .running →
    s.link.role = .receiver → s.link.medium = .busy →
    (s.link.state = .engaged → s.link.tec < 96 → s.link.recCount < 96 →
      ∃ t, exec c s = .next t ∧ t.link.recCount = s.link.recCount + 1 ∧ t.link.tec = s.link.tec
        ∧ t.link.answer = (if c = .frameBreakOff then none else some .reject) ∧ t.link.role = .none
        ∧ (s.link.recCount < 95 → Untouched [.link] s t ∧ t.link.state = .engaged)
        ∧ (s.link.recCount = 95 → t.link.state = .reticent ∧ t.flag .reticentEntered = true
            ∧ (s.adm.own = .claiming ∨ s.adm.own = .runPending → t.adm.own = .waiting))) ∧
    (s.link.state = .reticent → s.link.tec < 192 → s.link.recCount ≤ 255 → 80 ≤ s.link.tec ∨ 79 ≤ s.link.recCount →
      ∃ t, exec c s = .next t ∧ Untouched [.link] s t
        ∧ t.link = { s.link with
            role := .none, copy := none, holdOffMoved := false, recCount := min (s.link.recCount + 1) 255
            answer := if c = .frameBreakOff then none else some .reject }) ∧
    (s.link.state = .detached →
      ∃ t, exec c s = .next t ∧ Untouched [.link] s t
        ∧ t.link = { s.link with role := .none, copy := none, answer := none, holdOffMoved := false, quiet := .from 0 })) ∧
  (∀ (c : Instr) (kind : Nat) (f : RxFrame) (s : State),
    (kind = 3 ∧ c = .announce f ∨ kind = 2 ∧ c = .release f ∨ kind = 0 ∧ c = .inhibit f ∨ kind = 1 ∧ c = .clear f ∨
      kind = 4 ∧ commandAddressed s.settings.node s.settings.groups f = true
        ∧ ∃ k, f = commandRx k 0 ∧ c = .request k ∨ f = commandRx k 1 ∧ c = .abort k ∨ f = commandRx k 2 ∧ c = .resume k
          ∨ f = commandRx k 3 ∧ c = .report k) →
    s.loader.phase = .running → s.link.role = .receiver → s.link.medium = .busy → s.onLine = true → s.HeldOffAt f →
    checkGood kind f = true →
    ∃ t, exec c s = .next t ∧ Untouched [.link] s t
      ∧ t.link = { s.link with role := .none, copy := none, answer := some .hold, holdOffMoved := false }) ∧
  (∀ (kind : Nat) (c : Instr) (f : RxFrame) (s : State),
    (kind = 0 ∧ c = .inhibit f ∨ kind = 1 ∧ c = .clear f ∨ kind = 2 ∧ c = .release f ∨ kind = 3 ∧ c = .announce f ∨
      kind = 5 ∧ c = .status f ∨ kind = 6 ∧ c = .record f ∨ kind = 4 ∧ (c = .commandNotAddressed f ∨
        ∃ k, f = commandRx k 0 ∧ c = .request k ∨ f = commandRx k 1 ∧ c = .abort k ∨ f = commandRx k 2 ∧ c = .resume k
          ∨ f = commandRx k 3 ∧ c = .report k)) →
    s.loader.phase = .running → s.link.role = .receiver → s.link.medium = .busy →
    s.onLine = true ∧ ¬ s.HeldOffAt f ∨ s.link.state = .detached ∧ f.others.accept = true →
    checkGood kind f = true → f.others.reject = false → f.others.hold = false →
    senderNumber kind f = some s.settings.node →
    ∃ t, exec c s = .next t ∧ t.link.state = .barred ∧ t.link.quiet = .stopped ∧ t.link.role = .none ∧ t.link.tec = s.link.tec
      ∧ t.link.recCount = s.link.recCount ∧ t.board = s.board ∧ t.adm.own = .none ∧ t.adm.learning = .stopped
      ∧ t.tx.own = none ∧ (∀ i : Fin 4, t.tx.product[i] = none ∧ (t.adm.holds[i]).holding = false)
      ∧ (∀ j : Fin 4, t.seq.pendingSet[j] = none)
      ∧ (s.seq.state = .running → s.seq.attemptOpen = true → t.seq.state = .suspended ∧ t.seq.lastCause = some .linkLost))

/-- A medium found idle is idle, and at once, or at the end of hold-back, the choice is begun as the node's own copy, with
its length and check, where all of R157 allows it: start-up complete, ENGAGED or RETICENT, the medium idle, no part in a
frame, no hold-back, no own copy on the medium. So after no command does a frame wait at a node that is free to offer
it. Another station's start field makes the node its receiver; and an arbitration lost makes the sender a receiver with
its slot untouched and TEC as it was (R133 to R135, R137, R144, R157, R161). That the offer is made at the end of the
command, and that the end of hold-back acts whatever its count, are the model's choices: log entries 26 and 3. -/
def Obligations.MediumAndChoice : Prop :=
  (∀ (c : Instr) (s u : State), s.loader.phase = .running →
    (c = .mediumIdle ∧ s.link.role = .none ∧ s.link.state ≠ .barred ∧ u = { s with link := { s.link with medium := .idle } } ∨
      c = .holdBackExpiry ∧ s.tx.holdBack.on = true ∧ u = { s with tx := { s.tx with holdBack := .stopped } }) →
    ∃ t, exec c s = .next t ∧ Untouched [.link, .tx] s t ∧ SameLink s.link t.link
      ∧ SameTx u.tx t.tx
      ∧ (¬ u.FreeToOffer ∨ u.choose = none → t.link = u.link ∧ t.tx = u.tx)
      ∧ (∀ x, u.FreeToOffer → u.choose = some x →
          t.link = { u.link with copy := some x.frame, role := .sender, medium := .busy, holdOffMoved := false }
          ∧ x.frame.length = BitVec.ofNat 4 x.frame.payload.length ∧ x.frame.check = frameCheck x.frame.word x.frame.payload
          ∧ t.tx.copyFrom = some x.slot ∧ t.tx.marks.get x.slot = false ∧ t.tx.turn = x.turn ∧ t.tx.turnCount = x.count)) ∧
  (∀ (c : Instr) (s t : State), exec c s = .next t → t.FreeToOffer →
    t.tx.own = none ∧ (∀ i : Fin 4, t.tx.product[i] = none) ∧ t.tx.status = none ∧ t.log.queue = []) ∧
  (∀ s : State, s.loader.phase = .running → s.link.medium = .idle → s.link.state ≠ .barred →
    ∃ t, exec .peerStartField s = .next t ∧ Untouched [.link] s t
      ∧ t.link = { s.link with medium := .busy, role := .receiver, holdOffMoved := false }) ∧
  (∀ s : State, s.loader.phase = .running → s.link.role = .sender →
    ∃ t, exec .arbitrationLost s = .next t ∧ Untouched [.link, .tx] s t
      ∧ t.link = { s.link with role := .receiver, copy := none } ∧ t.tx = { s.tx with copyFrom := none })

/-- The end of an own copy: DELIVERED lowers TEC, raises the turn count for a STATUS or a fragment, current or not,
and, unless the slot was replaced meanwhile, empties the slot and acts on its content, by the timer that a WAIT,
CLAIM, RUN or PRODUCT starts, the flags that a STATUS carried, whose set is then empty, or the record stream, which
advances, a record under composition staying, and whose last fragment lets a waiting record into the queue; HELD
leaves TEC and begins the hold-back; REJECTED, UNANSWERED and an abandoned frame raise TEC by 4 and leave the slot.
TEC at 96 makes an ENGAGED node RETICENT, whose claiming step yields; a fall with both counts then below 80 makes it
ENGAGED again, a waiting step having an evaluation requested where the node is ACTIVE; TEC at 192 detaches the node,
its own step and holds let go (R37, R38, R41, R43, R44, R48, R49, R53, R136, R140, R141, R143, R145, R156, R159 to
R161, R168, R169, R174). -/
def Obligations.OwnCopyEnds : Prop :=
  (∀ (seen : AckSlots) (s : State) (slot : SlotId), s.loader.phase = .running → s.link.role = .sender →
    s.link.medium = .busy → s.tx.copyFrom = some slot → s.link.state = .engaged → s.link.tec < 92 → s.link.recCount < 96 →
    ∃ t, exec (.ownFrameEnd seen) s = .next t ∧ t.link.state = .engaged ∧ t.link.role = .none ∧ t.link.copy = none
      ∧ t.link.recCount = s.link.recCount ∧ t.tx.copyFrom = none ∧ t.board = s.board
      ∧ (seen.reject = true ∨ seen.hold = false ∧ seen.accept = false →
          Untouched [.link, .tx] s t ∧ t.link.tec = s.link.tec + 4 ∧ t.tx = { s.tx with copyFrom := none })
      ∧ (seen.reject = false → seen.hold = true →
          Untouched [.link, .tx] s t ∧ t.link.tec = s.link.tec ∧ t.tx = { s.tx with copyFrom := none, holdBack := .from 0 })
      ∧ (seen.reject = false → seen.hold = false → seen.accept = true → t.link.tec = s.link.tec - 1
          ∧ t.tx.turn = s.tx.turn
          ∧ t.tx.turnCount = (if slot = .status ∨ slot = .stream then s.tx.turnCount + 1 else s.tx.turnCount)
          ∧ (s.tx.marks.get slot = true → Untouched [.link, .tx] s t ∧ t.tx.own = s.tx.own ∧ t.tx.product = s.tx.product
              ∧ t.tx.status = s.tx.status)
          ∧ (s.tx.marks.get slot = false →
              (slot = .own → ∀ x, s.tx.own = some x → t.adm.last = some x ∧ t.tx.own = none
                ∧ (∀ key life pairs, x = .announce .run key life pairs → s.adm.own = .runPending →
                    t.adm.own = .running ∧ t.adm.refresh = .from 0 ∧ t.adm.guard = .from 0
                    ∧ .ownUpdate .cip s.ownPairs s.ownKey .running ∈ t.updates.ops ++ t.adm.waiting)
                ∧ (∀ key life pairs, x = .announce .claim key life pairs → s.adm.own = .claiming →
                    t.adm.own = .claiming ∧ t.adm.settle = .from 0 ∧ t.adm.lapse = .from 0)
                ∧ (∀ key life pairs, x = .announce .wait key life pairs → s.adm.own = .waiting →
                    t.adm.own = .waiting ∧ t.adm.refresh = if s.adm.refresh.on then s.adm.refresh else .from 0)
                ∧ (∀ key life pairs, x = .announce .run key life pairs → s.adm.own = .running →
                    t.adm.own = .running ∧ t.adm.guard = .from 0 ∧ t.adm.refresh = s.adm.refresh)) ∧
              (∀ i : Fin 4, slot = .product i → t.tx.product[i] = none ∧ t.tx.own = s.tx.own
                ∧ (∀ life r, s.tx.product[i] = some (.announce life r) → (s.adm.holds[i]).holding = true →
                    t.adm.holds[i] = ⟨true, if (s.adm.holds[i]).refresh.on then (s.adm.holds[i]).refresh else .from 0⟩)) ∧
              (slot = .status → t.tx.status = none ∧ t.tx.statusSuspend = none ∧ t.log.carried = 0 ∧ ∀ f : Sticky,
                t.flag f = (s.flag f && (!s.log.carried.getLsbD f.index || s.log.renewal.getLsbD f.index))) ∧
              (slot = .stream → ∀ r rest, s.log.queue = r :: rest → (∀ w, s.log.comp ≠ some ⟨w, true⟩) →
                (if s.log.nextFragment + 1 < r.fragmentCount
                  then t.log.queue = s.log.queue ∧ t.log.nextFragment = s.log.nextFragment + 1
                  else t.log.queue = rest ∧ t.log.nextFragment = 0)
                ∧ (s.log.comp ≠ none → t.log.comp = s.log.comp ∧ Untouched [.link, .tx, .log] s t)) ∧
              (slot = .stream → ∀ r rest, s.log.queue = r :: rest → s.log.nextFragment + 1 < r.fragmentCount →
                t.log = { s.log with nextFragment := s.log.nextFragment + 1 } ∧ Untouched [.link, .tx, .log] s t) ∧
              (slot = .stream → ∀ r rest w, s.log.queue = r :: rest → s.log.comp = some ⟨w, true⟩ → rest.length < 6 →
                r.fragmentCount ≤ s.log.nextFragment + 1 → s.seq.state = .closing → (∀ j : Fin 4, s.seq.pendingSet[j] = none) →
                t.log.queue = rest ++ [w] ∧ t.log.nextFragment = 0 ∧ t.log.comp = none ∧ t.seq.state = .idle)))) ∧
  (∀ (seen : AckSlots) (s : State) (slot : SlotId), s.loader.phase = .running → s.link.role = .sender →
    s.link.medium = .busy → s.tx.copyFrom = some slot → s.link.state = .reticent → s.link.tec < 192 → s.link.recCount ≤ 255 →
    seen.reject = false → seen.hold = false → seen.accept = true →
    ∃ t, exec (.ownFrameEnd seen) s = .next t ∧ t.link.tec = s.link.tec - 1 ∧ t.link.recCount = s.link.recCount
      ∧ t.link.role = .none ∧ t.link.copy = none ∧ t.tx.copyFrom = none ∧ t.board = s.board
      ∧ (if 0 < s.link.tec ∧ s.link.tec ≤ 80 ∧ s.link.recCount < 80 then
          t.link.state = .engaged ∧ (s.adm.own = .waiting → s.adm.state = .active → t.adm.evalReq.isSome = true)
        else t.link.state = .reticent)) ∧
  (∀ (c : Instr) (s : State), s.loader.phase = .running → s.link.role = .sender → s.link.medium = .busy → s.tx.copyFrom ≠ none →
    c = .frameAbandon ∨ c = .ownFrameEnd ⟨false, true, false⟩ → s.onLine = true →
    ∃ t, exec c s = .next t ∧ t.link.tec = min (s.link.tec + 4) 255 ∧ t.link.copy = none ∧ t.tx.copyFrom = none
      ∧ t.link.role = (if c = .frameAbandon then .receiver else .none)
      ∧ (s.link.state = .engaged → s.link.tec < 92 → s.link.recCount < 96 → Untouched [.link, .tx] s t
          ∧ t.link.state = .engaged ∧ t.tx = { s.tx with copyFrom := none })
      ∧ (s.link.state = .engaged → 92 ≤ s.link.tec → s.link.tec < 188 → t.link.state = .reticent
          ∧ t.flag .reticentEntered = true
          ∧ (s.adm.own = .claiming ∨ s.adm.own = .runPending → t.adm.own = .waiting
              ∧ t.tx.own = some (.announce .wait s.ownKey s.settings.leaseLife s.ownPairs)
              ∧ .ownUpdate .cip s.ownPairs s.ownKey .waiting ∈ t.updates.ops ++ t.adm.waiting)
          ∧ (s.adm.own ≠ .claiming → s.adm.own ≠ .runPending → Untouched [.link, .tx, .log] s t
              ∧ t.tx = { s.tx with copyFrom := none }))
      ∧ (188 ≤ s.link.tec → t.link.tec ≠ s.link.tec → t.link.state = .detached ∧ t.link.quiet = .from 0 ∧ t.adm.own = .none
          ∧ t.tx.own = none ∧ t.adm.learning = .stopped ∧ (∀ i : Fin 4, t.tx.product[i] = none)
          ∧ (s.seq.state ≠ .running → t.adm.standing = s.adm.standing)))

/-- Rejoin, at 5 s of quiet and not before: both counts 0, ENGAGED on a medium not yet seen idle, the board empty
with the inhibit flags kept, the update queue rid of all that waited and its hold-off, holding only the own
operations placed since (the standing request's own insert and those of the holds), LEARNING begun, urgency, aging
timer and standing request kept, the class-A slots rebuilt from the lines (R25, R33, R35, R50, R52, R146, R162). The
order of those own operations is the model's choice: log entry 34. -/
def Obligations.RejoinBeginsAfresh : Prop :=
  (∀ s : State, s.link.quiet.ms < 5000 → ∃ t, exec .rejoin s = .next t ∧ Untouched [] s t) ∧
  (∀ s : State, s.link.quiet.on = true → 5000 ≤ s.link.quiet.ms → s.link.state = .detached →
    s.seq.state ≠ .claiming → (s.seq.state = .running → s.tagCurrent = false) →
    ∃ t, exec .rejoin s = .next t ∧ Untouched [.board, .updates, .adm, .link, .tx, .log] s t ∧ SameLog s.log t.log
      ∧ t.link.state = .engaged ∧ t.link.tec = 0 ∧ t.link.recCount = 0 ∧ t.link.medium = .busy ∧ t.link.role = .none
      ∧ t.link.quiet = .stopped ∧ t.board = { Board.start with inhibit := s.board.inhibit }
      ∧ t.updates.holdOff = false ∧ (∀ op ∈ t.updates.ops, op.isOwn = true) ∧ t.updates.ops.length ≤ 2
      ∧ t.adm.evalReq = none ∧ t.adm.last = none ∧ t.adm.framePlaced = s.adm.framePlaced
      ∧ (∀ st, s.adm.standing = some st → .ownInsert .cip st.pairs t.ownKey .waiting ∈ t.updates.ops)
      ∧ (s.adm.standing = none → (∀ i : Fin 4, (t.adm.holds[i]).holding = false) → t.updates.ops = [])
      ∧ t.adm.state = .learning ∧ t.adm.learning = .from 0 ∧ t.adm.urgency = s.adm.urgency ∧ t.adm.aging = s.adm.aging
      ∧ t.adm.standing = s.adm.standing ∧ t.adm.own = (if s.adm.standing.isSome then .waiting else .none)
      ∧ t.tx.own = none ∧ t.tx.status = s.tx.status ∧ t.tx.statusSuspend = s.tx.statusSuspend ∧ t.tx.turn = s.tx.turn ∧ t.tx.turnCount = s.tx.turnCount
      ∧ ∀ (i : Fin 4) (r : Res), t.holdRes i = some r → (t.adm.holds[i]).holding = t.holdWanted r
          ∧ (t.tx.product[i] = if t.holdWanted r then some (.announce s.settings.leaseLife r) else none)
          ∧ (t.holdWanted r = true →
              .ownInsert .product [⟨r, 255⟩] s.settings.node .held ∈ t.updates.ops ++ t.adm.waiting))

/-! ### Whole-number rules of the verifier -/

/-- κ is compensated to 25 °C for each sample of a running step that names a conversion set, with κ and Tr present,
and for no other: D between 2500 and 47500, the quotient to the nearest whole number with halves up, the clamp at
65535 acting only where D is below 10000, and κ itself for α = 0 (R100). -/
def Obligations.ConductivityCompensatedTo25Degrees : Prop :=
  (∀ alpha tr kappa : Nat, alpha ≤ 30 → tr ≤ 1500 → kappa ≤ 65535 →
    (compensationDivisor alpha tr : Int) = 10000 + (alpha : Int) * ((tr : Int) - 250)
    ∧ 2500 ≤ compensationDivisor alpha tr ∧ compensationDivisor alpha tr ≤ 47500
    ∧ kappa25Of alpha tr kappa
        = min ((kappa * 10000 + compensationDivisor alpha tr / 2) / compensationDivisor alpha tr) 65535
    ∧ kappa25Of alpha tr kappa ≤ 65535
    ∧ (kappa25Of alpha tr kappa < 65535 →
        kappa25Of alpha tr kappa * compensationDivisor alpha tr
            ≤ kappa * 10000 + compensationDivisor alpha tr / 2
          ∧ kappa * 10000 + compensationDivisor alpha tr / 2
            < (kappa25Of alpha tr kappa + 1) * compensationDivisor alpha tr)
    ∧ (10000 ≤ compensationDivisor alpha tr → kappa25Of alpha tr kappa ≤ kappa)
    ∧ (alpha = 0 → kappa25Of alpha tr kappa = kappa)) ∧
  (∀ (ms limit : Nat) (st : Step) (set : Option ConvSet) (x : Sample) (v : Verifier),
    ∃ y, (v.takeSample ms limit st set x).ver.current = some y ∧ y.sample = x
      ∧ (y.kappa25.isSome = true ↔ (v.mode = .burst ∨ v.mode = .burstDone ∨ v.mode = .pause ∨ v.mode = .halted)
          ∧ set.isSome = true ∧ x.kappa.isSome = true ∧ x.tr.isSome = true)
      ∧ (∀ (c : ConvSet) (k tr : Nat), set = some c → x.kappa = some k → x.tr = some tr → y.kappa25.isSome = true →
          y.kappa25 = some (kappa25Of c.alpha tr k)))

/-- The concentration of each sample for which κ25 has been computed, and of no other: κ25 × slope / 1000 to the
nearest, halves up, clamped at 9999, and 0 for slope 0 (R101). -/
def Obligations.ConcentrationFromSlope : Prop :=
  (∀ slope k : Nat, slope ≤ 1000 → k ≤ 65535 →
    concOf slope k = min ((k * slope + 500) / 1000) 9999 ∧ k * slope ≤ 65535000
    ∧ (concOf slope k < 9999 → concOf slope k * 1000 ≤ k * slope + 500 ∧ k * slope + 500 < (concOf slope k + 1) * 1000)
    ∧ concOf 0 k = 0) ∧
  (∀ (ms limit : Nat) (st : Step) (set : Option ConvSet) (x : Sample) (v : Verifier),
    ∃ y, (v.takeSample ms limit st set x).ver.current = some y ∧ y.conc.isSome = y.kappa25.isSome
      ∧ (∀ (c : ConvSet) (k : Nat), set = some c → y.kappa25 = some k → y.conc = some (concOf c.slope k)))

/-- The weight of an in-band sample, which alone the credit takes, in band being what R102 says: 16 where the span
is 0, else 16 and one sixteenth more for each span/16 above Tmin, from 16 to 32, reaching 32 at Tmin + span, and
never falling with temperature; out of band no credit is added (R103). -/
def Obligations.WeightOfInBandSample : Prop :=
  (∀ (st : Step) (t : Taken), inBand st t = true → ∃ tr, t.sample.tr = some tr ∧ st.tmin ≤ tr
    ∧ (st.span = 0 → weight st tr = 16)
    ∧ (0 < st.span → weight st tr = min (16 + 16 * (tr - st.tmin) / st.span) 32)
    ∧ 16 ≤ weight st tr ∧ weight st tr ≤ 32
    ∧ (0 < st.span → st.tmin + st.span ≤ tr → weight st tr = 32)
    ∧ ∀ hotter, tr ≤ hotter → weight st tr ≤ weight st hotter) ∧
  (∀ (ms limit : Nat) (st : Step) (set : Option ConvSet) (x : Sample) (v : Verifier), v.mode = .burst → st.timed = false →
    inBand st (compute set x) = false → (v.takeSample ms limit st set x).ver.credit ≤ v.credit) ∧
  (∀ (ms limit : Nat) (st : Step) (set : Option ConvSet) (x : Sample) (v : Verifier), v.mode = .burst → st.timed = false →
    (inBand st (compute set x) = true ↔ st.BandMet set x) ∧
    (∀ tr, x.tr = some tr → st.BandMet set x →
      (v.takeSample ms limit st set x).ver.credit = min (v.credit + weight st tr) v.required) ∧
    (¬ st.BandMet set x → (v.takeSample ms limit st set x).ver.credit = v.credit ∨
      (v.takeSample ms limit st set x).ver.credit = 0))

/-! ### Checks, frames and records -/

/-- The computation over a string followed by its own check value ends at 0, so a reply or an image with its check
appended can be verified in one run; and no other two bytes do so (R184). -/
def Obligations.CheckValueResidue : Prop :=
  ∀ (bs : List Byte) (w : Word16),
    checkBytes (bs ++ bytes16 w.toNat) = 0 ↔ w = checkBytes bs

/-- What a node sends in its own step slot and its product slots, another station reads back as it was meant: an
ANNOUNCE with its owner, key, state, life and pairs in order, a RELEASE with its owner, role and set (R149 to R151,
R183, R185, R186). -/
def Obligations.OwnFramesReadAsSent : Prop :=
  ∀ (node : Nat) (others : AckSlots) (early : Bool) (x : RxFrame), 1 ≤ node → node ≤ 63 →
    x.others = others → x.early = early →
    (∀ (st : AnnState) (key life : Nat) (pairs : List Pair),
      key ≤ 4095 → key % 64 = node → life ≤ 255 → pairs.length ≤ 3 → (∀ p ∈ pairs, p.demand ≤ 255) →
      x.payload = ((OwnFrame.announce st key life pairs).frame node).payload →
      arbWord 3 x.low.toNat = ((OwnFrame.announce st key life pairs).frame node).word →
      x.check = frameCheck ((OwnFrame.announce st key life pairs).frame node).word x.payload →
      checkGood 3 x = true ∧
      readAnnounce x = some
        { owner := node, key := key, life := life, pairs := pairs.map fun p => ⟨p.res.val, p.demand⟩
          state := match st with
            | .wait => .waiting
            | .claim => .claiming
            | .run => .running }) ∧
    (∀ (life : Nat) (r : Res), life ≤ 255 →
      x.payload = ((ProdFrame.announce life r).frame node).payload →
      arbWord 3 x.low.toNat = ((ProdFrame.announce life r).frame node).word →
      readAnnounce x = some { owner := node, key := node, life := life, pairs := [⟨r.val, 255⟩], state := .held }) ∧
    (∀ rs : List Res,
      x.payload = ((OwnFrame.release rs).frame node).payload →
      arbWord 2 x.low.toNat = ((OwnFrame.release rs).frame node).word →
      ∃ w, readRelease x = some (.release node .cip w) ∧ ∀ r : Res, w.getLsbD r.val = true ↔ r ∈ rs) ∧
    (∀ r : Res,
      x.payload = ((ProdFrame.release r).frame node).payload →
      arbWord 2 x.low.toNat = ((ProdFrame.release r).frame node).word →
      ∃ w, readRelease x = some (.release node .product w) ∧ ∀ q : Res, w.getLsbD q.val = true ↔ q = r)

/-- A STATUS is 12 bytes, and a panel reads from their bits each field as the node held it, by the codes of R187:
round state, admission state, link state, phase and presented divert state in byte 0, and so on to the sixteen flag
bits; the credit percent is credit × 100 / required credit while a step runs and 0 in OFF and STANDBY (R171, R187). -/
def Obligations.StatusBytesCarryTheirFields : Prop :=
  ∀ s : State, s.seq.repeats ≤ 16 → s.adm.urgency ≤ 62 → s.link.tec ≤ 255 → s.link.recCount ≤ 255 →
    s.log.queue.length ≤ 6 → s.log.dropped ≤ 255 → s.ver.credit ≤ s.ver.required →
    ∃ b : Fin 12 → Nat, statusBytes s = (List.finRange 12).map (fun i => BitVec.ofNat 8 (b i)) ∧ (∀ i, b i < 256)
      ∧ b 0 / 32 = s.seq.state.code ∧ b 0 / 16 % 2 = s.adm.state.code ∧ b 0 / 4 % 4 = s.link.state.code
      ∧ b 0 / 2 % 2 = s.seq.phase.code ∧ b 0 % 2 = s.ver.presented.code
      ∧ b 1 = s.seq.roundNumber % 256 ∧ b 2 / 64 = s.seq.slot.val ∧ b 2 % 32 = s.seq.pointer.val
      ∧ b 3 = s.seq.repeats ∧ b 4 = s.ver.creditPercent ∧ b 4 ≤ 100 ∧ b 5 = s.adm.urgency ∧ b 6 = s.link.tec
      ∧ b 7 = s.link.recCount ∧ b 8 / 32 = s.log.queue.length ∧ b 8 % 8 = causeCode s.seq.lastCause
      ∧ b 9 = s.log.dropped ∧ b 10 * 256 + b 11 = s.log.flags.toNat
      ∧ (b 0 / 32 = match s.seq.state with
        | .idle => 0
        | .holdWait => 1
        | .waiting => 2
        | .claiming => 3
        | .running => 4
        | .suspended => 5
        | .closing => 6)
      ∧ b 0 / 16 % 2 = (if s.adm.state = .active then 1 else 0)
      ∧ (b 0 / 4 % 4 = match s.link.state with
        | .engaged => 0
        | .reticent => 1
        | .detached => 2
        | .barred => 3)
      ∧ b 0 / 2 % 2 = (if s.seq.phase = .pause then 1 else 0)
      ∧ b 0 % 2 = (if s.ver.divert = .recover ∧ s.ver.mode ≠ .off ∧ s.ver.mode ≠ .standby then 1 else 0)
      ∧ b 2 / 32 % 2 = 0 ∧ b 8 / 8 % 4 = 0
      ∧ (b 4 = match s.ver.mode with
        | .off => 0
        | .standby => 0
        | _ => s.ver.credit * 100 / s.ver.required)
      ∧ (b 8 % 8 = match s.seq.lastCause with
        | none => 0
        | some .sensorLost => 1
        | some .stepTime => 2
        | some .linkLost => 3
        | some .leaseLost => 4
        | some .routeTaken => 5)
      ∧ ∀ f : Sticky, s.flag f = (b 10 * 256 + b 11).testBit (match f with
        | .requestRefused => 0
        | .stepMark => 1
        | .shed => 2
        | .peerLapsed => 3
        | .viewIncomplete => 4
        | .recordDropped => 5
        | .sensorAbsent => 6
        | .overcommit => 7
        | .holdoffAsserted => 8
        | .inhibitChanged => 9
        | .chainIgnored => 10
        | .clamped => 11
        | .recipeUnusable => 12
        | .frontendSilent => 13
        | .claimLapsed => 14
        | .reticentEntered => 15)

/-- A record's fragments in index order carry its image and fewer than 8 padding bytes of 0; a record of 1 to 32
results has an image of 34 to 468 bytes and 5 to 59 fragments. The image is the 20-byte header and 14 bytes for each
result in order, each field at its place and by its codes, with 65535 for no value (R166, R169, R188). -/
def Obligations.RecordFragmentsCarryTheImage : Prop :=
  ∀ r : Record, 1 ≤ r.results.length → r.results.length ≤ 32 →
    r.image.length = 20 + 14 * r.results.length ∧ 5 ≤ r.fragmentCount ∧ r.fragmentCount ≤ 59
    ∧ (∀ k, (r.fragment k).length = 8)
    ∧ (∃ pad, pad < 8 ∧ (List.range r.fragmentCount).flatMap r.fragment = r.image ++ List.replicate pad 0)
    ∧ ∀ outcome cause : Nat,
      (outcome = match r.outcome with
        | .complete => 0
        | .aborted => 1
        | .stopped => 2
        | .abandoned => 3) →
      (cause = match r.lastCause with
        | none => 0
        | some .sensorLost => 1
        | some .stepTime => 2
        | some .linkLost => 3
        | some .leaseLost => 4
        | some .routeTaken => 5) →
      r.image.take 20 = ([r.roundNumber / 256, r.roundNumber, r.slot.val, r.endIndex, outcome, cause, r.suspendCount,
          (if r.truncated then 128 else 0) + r.results.length,
          r.startUptime / 2 ^ 24, r.startUptime / 2 ^ 16, r.startUptime / 2 ^ 8, r.startUptime,
          r.endUptime / 2 ^ 24, r.endUptime / 2 ^ 16, r.endUptime / 2 ^ 8, r.endUptime,
          r.recovered / 256, r.recovered, r.drained / 256, r.drained] : List Nat).map (BitVec.ofNat 8)
      ∧ ∀ (k : Nat) (x : StepResult) (how tmin tmax peak : Nat), r.results[k]? = some x →
          (how = match x.outcome with
            | .done => 0
            | .shed => 1
            | .cut => 2
            | .failedSensor => 3
            | .failedTime => 4
            | .failedLink => 5
            | .failedLease => 6
            | .failedRoute => 7) →
          (tmin = match x.minTr with
            | none => 65535
            | some n => n) →
          (tmax = match x.maxTr with
            | none => 65535
            | some n => n) →
          (peak = match x.peak with
            | none => 65535
            | some n => n) →
          (r.image.drop (20 + 14 * k)).take 14 = ([x.step.val, how, x.reps, x.restarts, x.waitSeconds / 256, x.waitSeconds,
            x.runSeconds / 256, x.runSeconds, tmin / 256, tmin, tmax / 256, tmax, peak / 256, peak] : List Nat).map (BitVec.ofNat 8)

/-! ### The board's lists and tests -/

/-- The pairs of an announcement that are not skipped: those that name a present resource for the first time and, for
role CIP, a demand of 1 to 250; in the order carried (R10). That a pair is skipped after an earlier skipped one for
its resource is deduced: log entry 22. -/
def Obligations.ListedPairsAreTheUnskipped : Prop :=
  ∀ (capacity : Vector Nat 16) (role : Role) (pairs : List Claim),
    ((listedPairs capacity role [] pairs).map fun p => (⟨p.res.val, p.demand⟩ : Claim)).Sublist pairs ∧
    ∀ p : Pair, p ∈ listedPairs capacity role [] pairs ↔
      ∃ k : Nat, pairs[k]? = some ⟨p.res.val, p.demand⟩ ∧ capacity[p.res] ≠ 0
        ∧ (role = .cip → 1 ≤ p.demand ∧ p.demand ≤ 250)
        ∧ ∀ j, j < k → ∀ c, pairs[j]? = some c → c.resource ≠ p.res.val

/-- The fit test, over the resources on which an own CIP entry stands. The load on a resource is the sum of the demands of
its CIP entries that are not own and are RUNNING, or CLAIMING or WAITING with a key lower than the own one. A resource
fails with INHIBITED, else INCOMPLETE, else PRODUCT where any HELD entry is on it, else FULL where the load and the own
demand exceed its capacity. The outcome is EMPTY with no such entry, PASS where no resource fails, and otherwise the
reason of the failing resource with the lowest number (R18, R29). -/
def Obligations.FitTestOutcome : Prop :=
  ∀ (capacity : Vector Nat 16) (b : Board) (load : Res → Entry → Nat) (fails : Res → Entry → Fit → Prop),
    (∀ r own, load r own = (((b.lists[r]).filter fun e => decide (e.own = false ∧ e.role = .cip
        ∧ (e.state = .running ∨ (e.state = .claiming ∨ e.state = .waiting) ∧ e.key < own.key))).map
          fun e => e.demand.getD 0).sum) →
    (∀ r own,
      (fails r own .inhibited ↔ b.inhibit[r] = true) ∧
      (fails r own .incomplete ↔ b.inhibit[r] = false ∧ b.incomplete[r] = true) ∧
      (fails r own .product ↔ b.inhibit[r] = false ∧ b.incomplete[r] = false ∧ ∃ e ∈ b.lists[r], e.state = .held) ∧
      (fails r own .full ↔ b.inhibit[r] = false ∧ b.incomplete[r] = false ∧ (∀ e ∈ b.lists[r], e.state ≠ .held)
        ∧ capacity[r] < load r own + own.demand.getD 0) ∧
      ¬ fails r own .pass ∧ ¬ fails r own .empty) →
    (fitTest capacity b = .empty ↔ ∀ r : Res, b.findOwn r .cip = none) ∧
    (fitTest capacity b = .pass ↔ (∃ r : Res, (b.findOwn r .cip).isSome = true) ∧
      ∀ (r : Res) (own : Entry), b.findOwn r .cip = some own → ∀ reason, ¬ fails r own reason) ∧
    (∀ reason : Fit, reason ≠ .pass → reason ≠ .empty →
      (fitTest capacity b = reason ↔ ∃ (r : Res) (own : Entry), b.findOwn r .cip = some own ∧ fails r own reason
        ∧ ∀ (q : Res) (other : Entry), q < r → b.findOwn q .cip = some other → ∀ why, ¬ fails q other why))

/-- The verdict of a result, over the touched resources on which an own CIP entry runs: ROUTE_TAKEN if any of them
carries a HELD entry, otherwise SHED if on any of them the RUNNING demands of keys up to the own key exceed the
capacity, otherwise none (R22, R30). -/
def Obligations.VerdictOnRunningResources : Prop :=
  ∀ (capacity : Vector Nat 16) (b : Board) (touched : List Res) (runs : Res → Entry → Prop),
    (∀ r own, runs r own ↔ r ∈ touched ∧ b.findOwn r .cip = some own ∧ own.state = .running) →
    (verdictFor capacity b touched = some .routeTaken ↔ ∃ r own, runs r own ∧ ∃ e ∈ b.lists[r], e.state = .held) ∧
    (verdictFor capacity b touched = some .shed ↔
      (∀ r own, runs r own → ∀ e ∈ b.lists[r], e.state ≠ .held) ∧
      ∃ r own, runs r own
        ∧ capacity[r] < demandSum (fun e => decide (e.state = .running ∧ e.key ≤ own.key)) b.lists[r])

/-! ### What loading leaves -/

/-- Whatever the image, every node-wide setting is kept as its byte of R190 brought into its range, a map or divert
line of no meaning as none; the timings drawn from it are those of R26, R28 and R178; and CLAMPED is set exactly
where a setting, a conversion set, a base urgency or a field of a step in use lay outside its range (R26, R56, R61,
R62, R64, R65, R178, R179, R190, R191). That a missing byte reads as 255, and that Cmin and Cmax beside a set byte
of 4 to 254 count as for a named set, are the model's choices: log entries 19 and 33. -/
def Obligations.LoadedSettingsInRange : Prop :=
  ∀ bytes : List Byte, ∃ c, (loadImage bytes).settings = c
    ∧ c.rateCode ≤ 2 ∧ 1 ≤ c.refresh ∧ c.refresh ≤ 10 ∧ 2 ≤ c.settle ∧ c.settle ≤ 20 ∧ 10 ≤ c.aging ∧ c.aging ≤ 600
    ∧ c.sampleCode ≤ 2 ∧ 2 ≤ c.sensorLimit ∧ c.sensorLimit ≤ 20 ∧ 1 ≤ c.suspendLimit ∧ c.suspendLimit ≤ 120
    ∧ 1 ≤ c.statusPeriod ∧ c.statusPeriod ≤ 60 ∧ c.wBCode ≤ 3 ∧ c.wCCode ≤ 3 ∧ (∀ r : Res, c.capacity[r] ≤ 250)
    ∧ (8 ≤ c.lapseLife ∧ c.lapseLife ≤ 80) ∧ (15 ≤ c.leaseLife ∧ c.leaseLife ≤ 150)
    ∧ c.lapseMs = 2 * c.settleMs ∧ c.guardMs = 2 * c.refreshMs
    ∧ c.node = byteAt 255 bytes 4 ∧ c.groups.toNat = byteAt 255 bytes 5 ∧ c.rest.toNat = wordAt 255 bytes 38 % 4096
    ∧ ∀ b : Nat → Nat, b = byteAt 255 bytes →
      c.rateCode = min (b 6) 2 ∧ c.refresh = max 1 (min (b 7) 10) ∧ c.settle = max 2 (min (b 8) 20)
      ∧ c.aging = max 10 (min (b 9 * 256 + b 10) 600) ∧ c.sampleCode = min (b 11) 2 ∧ c.sensorLimit = max 2 (min (b 12) 20)
      ∧ c.suspendLimit = max 1 (min (b 13) 120) ∧ c.statusPeriod = max 1 (min (b 14) 60)
      ∧ c.wBCode = min (b 15) 3 ∧ c.wCCode = min (b 16) 3 ∧ (c.policy = .dropOldest ↔ b 17 = 0)
      ∧ (∀ r : Res, c.capacity[r] = min (b (18 + r.val)) 250)
      ∧ (∀ i : Fin 4, (c.prodMap[i]).map (·.val) = if b (34 + i.val) < 16 then some (b (34 + i.val)) else none)
      ∧ c.divertLine.map (·.val) = (if b 40 < 12 then some (b 40) else none)
      ∧ c.settleMs = 100 * c.settle ∧ c.refreshMs = 250 * c.refresh ∧ c.agingMs = 1000 * c.aging
      ∧ (c.sampleCode = 0 ∧ c.sampleMs = 250 ∨ c.sampleCode = 1 ∧ c.sampleMs = 500 ∨ c.sampleCode = 2 ∧ c.sampleMs = 1000)
      ∧ c.suspendMs = 60000 * c.suspendLimit ∧ c.statusMs = 1000 * c.statusPeriod
      ∧ c.lapseLife = 4 * c.settle ∧ c.leaseLife = 15 * c.refresh ∧ c.wB = 2 ^ c.wBCode ∧ c.wC = 2 ^ c.wCCode
      ∧ ((loadImage bytes).clamped = true ↔
          2 < b 6 ∨ b 7 = 0 ∨ 10 < b 7 ∨ b 8 < 2 ∨ 20 < b 8 ∨ b 9 * 256 + b 10 < 10 ∨ 600 < b 9 * 256 + b 10
          ∨ 2 < b 11 ∨ b 12 < 2 ∨ 20 < b 12 ∨ b 13 = 0 ∨ 120 < b 13 ∨ b 14 = 0 ∨ 60 < b 14 ∨ 3 < b 15 ∨ 3 < b 16
          ∨ 1 < b 17 ∨ (∃ r : Res, 250 < b (18 + r.val)) ∨ (∃ i : Fin 4, 15 < b (34 + i.val) ∧ b (34 + i.val) ≠ 255)
          ∨ 11 < b 40 ∧ b 40 ≠ 255
          ∨ (∃ n : Fin 4, 30 < convByte bytes n 0 ∨ 1000 < convWord bytes n 1 ∨ 9999 < convWord bytes n 3 ∨ 9999 < convWord bytes n 5)
          ∨ (∃ i : Fin 4, 62 < slotByte bytes i 1)
          ∨ ∃ (i : Fin 4) (j : Fin 20), StepInUse bytes i j ∧ StepOutOfRange bytes i j)

/-- After loading, every step in use of every usable recipe lies within the ranges that the blocks rely on, and the
base urgency of every slot within 0 to 62; each field of a conversion set, a header and a step in use is kept as the
image gives it, clamped. A recipe is usable exactly where its step count is 1 to 20 and no step in use has a fault
that R66 lists; the steps in use end at the first with LAST set. The CHAIN flag of a step in use is kept exactly
where it was set and valid: the same resources as the step before it, with no larger demands, a claim, no HOLD;
RECIPE_UNUSABLE and CHAIN_IGNORED are set exactly where a recipe is unusable and where a flag is cleared (R56, R57,
R58, R60 to R62, R64 to R67, R190, R191). That a missing byte reads as 255 is the model's choice: log entry 19. -/
def Obligations.UsableRecipesInRange : Prop :=
  ∀ (bytes : List Byte) (i : Fin 4) (j : Fin 20),
    let d := loadImage bytes
    let slot := d.store.slots[i]
    let st := slot.steps[j]
    slot.baseUrgency ≤ 62 ∧
    (slot.usable = true → 1 ≤ slot.stepCount ∧ slot.stepCount ≤ 20 ∧ slot.finalIndex.val < slot.stepCount ∧
      (j ≤ slot.finalIndex →
        1 ≤ st.contact ∧ st.contact ≤ 7200 ∧ 1 ≤ st.repeats ∧ st.repeats ≤ 16 ∧ st.pauseTime ≤ 600
        ∧ 10 ≤ st.limit ∧ st.limit ≤ 14400 ∧ st.contact ≤ st.limit ∧ st.tmin ≤ 1500 ∧ st.span ≤ 500 ∧ st.fmin ≤ 1000
        ∧ st.claims.length ≤ 3 ∧ (st.claims.map (·.resource)).Nodup
        ∧ (∀ c ∈ st.claims, 1 ≤ c.demand ∧ c.demand ≤ d.settings.capacityAt c.resource)
        ∧ (∀ n, st.convSet = .set n →
            (d.store.sets[n]).usable = true ∧ (d.store.sets[n]).drain ≤ (d.store.sets[n]).recover
            ∧ st.cmin ≤ st.cmax ∧ st.cmax ≤ 9999)
        ∧ (∀ n, st.convSet ≠ .bad n) ∧ (∀ n, st.routing ≠ .bad n) ∧ (st.routing = .divert → st.convSet ≠ .none)
        ∧ (st.chain = true → 0 < j.val ∧ st.hold = false ∧ st.claims ≠ []))) ∧
    (∀ n : Fin 4, (d.store.sets[n]).alpha = min (convByte bytes n 0) 30 ∧ (d.store.sets[n]).slope = min (convWord bytes n 1) 1000
      ∧ (d.store.sets[n]).recover = min (convWord bytes n 3) 9999 ∧ (d.store.sets[n]).drain = min (convWord bytes n 5) 9999
      ∧ ((d.store.sets[n]).usable = true ↔ (d.store.sets[n]).drain ≤ (d.store.sets[n]).recover)) ∧
    slot.stepCount = slotByte bytes i 0 ∧ slot.baseUrgency = min (slotByte bytes i 1) 62 ∧
    (slot.usable = true ↔ 1 ≤ slotByte bytes i 0 ∧ slotByte bytes i 0 ≤ 20
      ∧ ∀ k : Fin 20, StepInUse bytes i k → ¬ StepFaulty bytes d.settings i k) ∧
    (slot.usable = true → (j ≤ slot.finalIndex ↔ StepInUse bytes i j)) ∧
    (StepInUse bytes i j → StepKept bytes i j st) ∧
    (slot.usable = true → StepInUse bytes i j →
      (st.chain = true ↔ stepByte bytes i j 31 / 8 % 2 = 1 ∧ ChainFits slot.steps j)) ∧
    (d.unusable = true ↔ ∃ k : Fin 4, (d.store.slots[k]).usable = false) ∧
    (d.chainIgnored = true ↔ ∃ (k : Fin 4) (l : Fin 20), (d.store.slots[k]).usable = true ∧ StepInUse bytes k l
      ∧ stepByte bytes k l 31 / 8 % 2 = 1 ∧ ((d.store.slots[k]).steps[l]).chain = false)

/-! ### The selector's choice -/

/-- Where any class-A slot is pending, the choice is the class-A slot whose content has the lowest arbitration word, of
equals the own step slot before the product slots and these by line; the turn and its count stay. So the node's
releases go before its product announcements, and those before its own step's announcement (R158). -/
def Obligations.ClassALowestWordFirst : Prop :=
  ∀ s : State, s.tx.own.isSome = true ∨ (∃ i : Fin 4, (s.tx.product[i]).isSome = true) →
    ∃ c, s.choose = some c ∧ c.turn = s.tx.turn ∧ c.count = s.tx.turnCount
      ∧ ((∃ x, s.tx.own = some x ∧ c.slot = .own ∧ c.frame = x.frame s.settings.node
            ∧ ∀ (j : Fin 4) (y : ProdFrame), s.tx.product[j] = some y →
                c.frame.word.toNat ≤ (y.frame s.settings.node).word.toNat) ∨
          (∃ (i : Fin 4) (x : ProdFrame), s.tx.product[i] = some x ∧ c.slot = .product i ∧ c.frame = x.frame s.settings.node
            ∧ (∀ y, s.tx.own = some y → c.frame.word.toNat < (y.frame s.settings.node).word.toNat)
            ∧ ∀ (j : Fin 4) (y : ProdFrame), s.tx.product[j] = some y →
                c.frame.word.toNat ≤ (y.frame s.settings.node).word.toNat
                  ∧ (j < i → c.frame.word.toNat < (y.frame s.settings.node).word.toNat)))
      ∧ (s.settings.node ≤ 63 →
          (∀ st key life pairs, s.tx.own = some (.announce st key life pairs) → 65 ≤ key ∧ key ≤ 4095) →
          ((∃ rs, s.tx.own = some (.release rs)) ∨ (∃ (i : Fin 4) (r : Res), s.tx.product[i] = some (.release r)) →
            c.frame.word.toNat = 8192 + s.settings.node)
          ∧ ((∃ i : Fin 4, (s.tx.product[i]).isSome = true) →
            c.frame.word.toNat = 8192 + s.settings.node ∨ c.frame.word.toNat = 12288 + s.settings.node))

/-- With no class-A slot pending, the round robin: the class in turn below its weight, else the other class with a
count of 0, else the first class again with a count of 0; something pending is always chosen. The frame offered from
the status slot has the word 20480 + node and the slot's bytes; the one from the record stream has the word 24576 +
node and carries the head's round number, the next fragment's index, the count and its 8 data bytes (R149, R159,
R169, R186). -/
def Obligations.RoundRobinServesBothClasses : Prop :=
  ∀ s : State, s.classA = [] →
    (s.choose = none ↔ s.tx.status = none ∧ s.log.queue = []) ∧
    (∀ c, s.choose = some c →
      (c.slot = .status ∧ c.turn = .b ∧ s.tx.status.isSome = true ∨ c.slot = .stream ∧ c.turn = .c ∧ s.log.queue ≠ []) ∧
      (c.turn = s.tx.turn → c.count =
        if s.tx.turnCount < (if s.tx.turn = .b then s.settings.wB else s.settings.wC) then s.tx.turnCount else 0) ∧
      (c.turn ≠ s.tx.turn → c.count = 0) ∧
      (c.slot = .status → ∃ bytes, s.tx.status = some bytes ∧ c.frame.payload = bytes
        ∧ (s.settings.node ≤ 63 → c.frame.word.toNat = 20480 + s.settings.node)) ∧
      (c.slot = .stream → ∃ r rest, s.log.queue = r :: rest
        ∧ c.frame.payload = ([r.roundNumber / 256, r.roundNumber, s.log.nextFragment, r.fragmentCount] : List Nat).map (BitVec.ofNat 8)
            ++ r.fragment s.log.nextFragment
        ∧ (s.settings.node ≤ 63 → c.frame.word.toNat = 24576 + s.settings.node)) ∧
      c.frame.length = BitVec.ofNat 4 c.frame.payload.length ∧ c.frame.check = frameCheck c.frame.word c.frame.payload ∧
      (s.tx.status.isSome = true → s.log.queue ≠ [] →
        (c.turn = s.tx.turn ↔ s.tx.turnCount < (if s.tx.turn = .b then s.settings.wB else s.settings.wC))))
end

