-- ==== Sys2Proof/Laws/State.lean ====
section
/-! SUPPORT. One lemma for each field under each update of a block, true by definition, so that no later proof unfolds a record update; and the same for the driven lines. -/

namespace Sys2Proof.Machine

section
variable (s : State) (f : Loader → Loader)
@[simp] theorem State.onLoader_loader : (s.onLoader f).loader = f s.loader := rfl
@[simp] theorem State.onLoader_settings : (s.onLoader f).settings = s.settings := rfl
@[simp] theorem State.onLoader_store : (s.onLoader f).store = s.store := rfl
@[simp] theorem State.onLoader_board : (s.onLoader f).board = s.board := rfl
@[simp] theorem State.onLoader_updates : (s.onLoader f).updates = s.updates := rfl
@[simp] theorem State.onLoader_adm : (s.onLoader f).adm = s.adm := rfl
@[simp] theorem State.onLoader_seq : (s.onLoader f).seq = s.seq := rfl
@[simp] theorem State.onLoader_ver : (s.onLoader f).ver = s.ver := rfl
@[simp] theorem State.onLoader_port : (s.onLoader f).port = s.port := rfl
@[simp] theorem State.onLoader_link : (s.onLoader f).link = s.link := rfl
@[simp] theorem State.onLoader_tx : (s.onLoader f).tx = s.tx := rfl
@[simp] theorem State.onLoader_log : (s.onLoader f).log = s.log := rfl
@[simp] theorem State.onLoader_pending : (s.onLoader f).pending = s.pending := rfl
end

section
variable (s : State) (f : Settings → Settings)
@[simp] theorem State.onSettings_loader : (s.onSettings f).loader = s.loader := rfl
@[simp] theorem State.onSettings_settings : (s.onSettings f).settings = f s.settings := rfl
@[simp] theorem State.onSettings_store : (s.onSettings f).store = s.store := rfl
@[simp] theorem State.onSettings_board : (s.onSettings f).board = s.board := rfl
@[simp] theorem State.onSettings_updates : (s.onSettings f).updates = s.updates := rfl
@[simp] theorem State.onSettings_adm : (s.onSettings f).adm = s.adm := rfl
@[simp] theorem State.onSettings_seq : (s.onSettings f).seq = s.seq := rfl
@[simp] theorem State.onSettings_ver : (s.onSettings f).ver = s.ver := rfl
@[simp] theorem State.onSettings_port : (s.onSettings f).port = s.port := rfl
@[simp] theorem State.onSettings_link : (s.onSettings f).link = s.link := rfl
@[simp] theorem State.onSettings_tx : (s.onSettings f).tx = s.tx := rfl
@[simp] theorem State.onSettings_log : (s.onSettings f).log = s.log := rfl
@[simp] theorem State.onSettings_pending : (s.onSettings f).pending = s.pending := rfl
end

section
variable (s : State) (f : Store → Store)
@[simp] theorem State.onStore_loader : (s.onStore f).loader = s.loader := rfl
@[simp] theorem State.onStore_settings : (s.onStore f).settings = s.settings := rfl
@[simp] theorem State.onStore_store : (s.onStore f).store = f s.store := rfl
@[simp] theorem State.onStore_board : (s.onStore f).board = s.board := rfl
@[simp] theorem State.onStore_updates : (s.onStore f).updates = s.updates := rfl
@[simp] theorem State.onStore_adm : (s.onStore f).adm = s.adm := rfl
@[simp] theorem State.onStore_seq : (s.onStore f).seq = s.seq := rfl
@[simp] theorem State.onStore_ver : (s.onStore f).ver = s.ver := rfl
@[simp] theorem State.onStore_port : (s.onStore f).port = s.port := rfl
@[simp] theorem State.onStore_link : (s.onStore f).link = s.link := rfl
@[simp] theorem State.onStore_tx : (s.onStore f).tx = s.tx := rfl
@[simp] theorem State.onStore_log : (s.onStore f).log = s.log := rfl
@[simp] theorem State.onStore_pending : (s.onStore f).pending = s.pending := rfl
end

section
variable (s : State) (f : Board → Board)
@[simp] theorem State.onBoard_loader : (s.onBoard f).loader = s.loader := rfl
@[simp] theorem State.onBoard_settings : (s.onBoard f).settings = s.settings := rfl
@[simp] theorem State.onBoard_store : (s.onBoard f).store = s.store := rfl
@[simp] theorem State.onBoard_board : (s.onBoard f).board = f s.board := rfl
@[simp] theorem State.onBoard_updates : (s.onBoard f).updates = s.updates := rfl
@[simp] theorem State.onBoard_adm : (s.onBoard f).adm = s.adm := rfl
@[simp] theorem State.onBoard_seq : (s.onBoard f).seq = s.seq := rfl
@[simp] theorem State.onBoard_ver : (s.onBoard f).ver = s.ver := rfl
@[simp] theorem State.onBoard_port : (s.onBoard f).port = s.port := rfl
@[simp] theorem State.onBoard_link : (s.onBoard f).link = s.link := rfl
@[simp] theorem State.onBoard_tx : (s.onBoard f).tx = s.tx := rfl
@[simp] theorem State.onBoard_log : (s.onBoard f).log = s.log := rfl
@[simp] theorem State.onBoard_pending : (s.onBoard f).pending = s.pending := rfl
end

section
variable (s : State) (f : Updates → Updates)
@[simp] theorem State.onUpdates_loader : (s.onUpdates f).loader = s.loader := rfl
@[simp] theorem State.onUpdates_settings : (s.onUpdates f).settings = s.settings := rfl
@[simp] theorem State.onUpdates_store : (s.onUpdates f).store = s.store := rfl
@[simp] theorem State.onUpdates_board : (s.onUpdates f).board = s.board := rfl
@[simp] theorem State.onUpdates_updates : (s.onUpdates f).updates = f s.updates := rfl
@[simp] theorem State.onUpdates_adm : (s.onUpdates f).adm = s.adm := rfl
@[simp] theorem State.onUpdates_seq : (s.onUpdates f).seq = s.seq := rfl
@[simp] theorem State.onUpdates_ver : (s.onUpdates f).ver = s.ver := rfl
@[simp] theorem State.onUpdates_port : (s.onUpdates f).port = s.port := rfl
@[simp] theorem State.onUpdates_link : (s.onUpdates f).link = s.link := rfl
@[simp] theorem State.onUpdates_tx : (s.onUpdates f).tx = s.tx := rfl
@[simp] theorem State.onUpdates_log : (s.onUpdates f).log = s.log := rfl
@[simp] theorem State.onUpdates_pending : (s.onUpdates f).pending = s.pending := rfl
end

section
variable (s : State) (f : Admission → Admission)
@[simp] theorem State.onAdm_loader : (s.onAdm f).loader = s.loader := rfl
@[simp] theorem State.onAdm_settings : (s.onAdm f).settings = s.settings := rfl
@[simp] theorem State.onAdm_store : (s.onAdm f).store = s.store := rfl
@[simp] theorem State.onAdm_board : (s.onAdm f).board = s.board := rfl
@[simp] theorem State.onAdm_updates : (s.onAdm f).updates = s.updates := rfl
@[simp] theorem State.onAdm_adm : (s.onAdm f).adm = f s.adm := rfl
@[simp] theorem State.onAdm_seq : (s.onAdm f).seq = s.seq := rfl
@[simp] theorem State.onAdm_ver : (s.onAdm f).ver = s.ver := rfl
@[simp] theorem State.onAdm_port : (s.onAdm f).port = s.port := rfl
@[simp] theorem State.onAdm_link : (s.onAdm f).link = s.link := rfl
@[simp] theorem State.onAdm_tx : (s.onAdm f).tx = s.tx := rfl
@[simp] theorem State.onAdm_log : (s.onAdm f).log = s.log := rfl
@[simp] theorem State.onAdm_pending : (s.onAdm f).pending = s.pending := rfl
end

section
variable (s : State) (f : Sequencer → Sequencer)
@[simp] theorem State.onSeq_loader : (s.onSeq f).loader = s.loader := rfl
@[simp] theorem State.onSeq_settings : (s.onSeq f).settings = s.settings := rfl
@[simp] theorem State.onSeq_store : (s.onSeq f).store = s.store := rfl
@[simp] theorem State.onSeq_board : (s.onSeq f).board = s.board := rfl
@[simp] theorem State.onSeq_updates : (s.onSeq f).updates = s.updates := rfl
@[simp] theorem State.onSeq_adm : (s.onSeq f).adm = s.adm := rfl
@[simp] theorem State.onSeq_seq : (s.onSeq f).seq = f s.seq := rfl
@[simp] theorem State.onSeq_ver : (s.onSeq f).ver = s.ver := rfl
@[simp] theorem State.onSeq_port : (s.onSeq f).port = s.port := rfl
@[simp] theorem State.onSeq_link : (s.onSeq f).link = s.link := rfl
@[simp] theorem State.onSeq_tx : (s.onSeq f).tx = s.tx := rfl
@[simp] theorem State.onSeq_log : (s.onSeq f).log = s.log := rfl
@[simp] theorem State.onSeq_pending : (s.onSeq f).pending = s.pending := rfl
end

section
variable (s : State) (f : Verifier → Verifier)
@[simp] theorem State.onVer_loader : (s.onVer f).loader = s.loader := rfl
@[simp] theorem State.onVer_settings : (s.onVer f).settings = s.settings := rfl
@[simp] theorem State.onVer_store : (s.onVer f).store = s.store := rfl
@[simp] theorem State.onVer_board : (s.onVer f).board = s.board := rfl
@[simp] theorem State.onVer_updates : (s.onVer f).updates = s.updates := rfl
@[simp] theorem State.onVer_adm : (s.onVer f).adm = s.adm := rfl
@[simp] theorem State.onVer_seq : (s.onVer f).seq = s.seq := rfl
@[simp] theorem State.onVer_ver : (s.onVer f).ver = f s.ver := rfl
@[simp] theorem State.onVer_port : (s.onVer f).port = s.port := rfl
@[simp] theorem State.onVer_link : (s.onVer f).link = s.link := rfl
@[simp] theorem State.onVer_tx : (s.onVer f).tx = s.tx := rfl
@[simp] theorem State.onVer_log : (s.onVer f).log = s.log := rfl
@[simp] theorem State.onVer_pending : (s.onVer f).pending = s.pending := rfl
end

section
variable (s : State) (f : Port → Port)
@[simp] theorem State.onPort_loader : (s.onPort f).loader = s.loader := rfl
@[simp] theorem State.onPort_settings : (s.onPort f).settings = s.settings := rfl
@[simp] theorem State.onPort_store : (s.onPort f).store = s.store := rfl
@[simp] theorem State.onPort_board : (s.onPort f).board = s.board := rfl
@[simp] theorem State.onPort_updates : (s.onPort f).updates = s.updates := rfl
@[simp] theorem State.onPort_adm : (s.onPort f).adm = s.adm := rfl
@[simp] theorem State.onPort_seq : (s.onPort f).seq = s.seq := rfl
@[simp] theorem State.onPort_ver : (s.onPort f).ver = s.ver := rfl
@[simp] theorem State.onPort_port : (s.onPort f).port = f s.port := rfl
@[simp] theorem State.onPort_link : (s.onPort f).link = s.link := rfl
@[simp] theorem State.onPort_tx : (s.onPort f).tx = s.tx := rfl
@[simp] theorem State.onPort_log : (s.onPort f).log = s.log := rfl
@[simp] theorem State.onPort_pending : (s.onPort f).pending = s.pending := rfl
end

section
variable (s : State) (f : Link → Link)
@[simp] theorem State.onLink_loader : (s.onLink f).loader = s.loader := rfl
@[simp] theorem State.onLink_settings : (s.onLink f).settings = s.settings := rfl
@[simp] theorem State.onLink_store : (s.onLink f).store = s.store := rfl
@[simp] theorem State.onLink_board : (s.onLink f).board = s.board := rfl
@[simp] theorem State.onLink_updates : (s.onLink f).updates = s.updates := rfl
@[simp] theorem State.onLink_adm : (s.onLink f).adm = s.adm := rfl
@[simp] theorem State.onLink_seq : (s.onLink f).seq = s.seq := rfl
@[simp] theorem State.onLink_ver : (s.onLink f).ver = s.ver := rfl
@[simp] theorem State.onLink_port : (s.onLink f).port = s.port := rfl
@[simp] theorem State.onLink_link : (s.onLink f).link = f s.link := rfl
@[simp] theorem State.onLink_tx : (s.onLink f).tx = s.tx := rfl
@[simp] theorem State.onLink_log : (s.onLink f).log = s.log := rfl
@[simp] theorem State.onLink_pending : (s.onLink f).pending = s.pending := rfl
end

section
variable (s : State) (f : Selector → Selector)
@[simp] theorem State.onTx_loader : (s.onTx f).loader = s.loader := rfl
@[simp] theorem State.onTx_settings : (s.onTx f).settings = s.settings := rfl
@[simp] theorem State.onTx_store : (s.onTx f).store = s.store := rfl
@[simp] theorem State.onTx_board : (s.onTx f).board = s.board := rfl
@[simp] theorem State.onTx_updates : (s.onTx f).updates = s.updates := rfl
@[simp] theorem State.onTx_adm : (s.onTx f).adm = s.adm := rfl
@[simp] theorem State.onTx_seq : (s.onTx f).seq = s.seq := rfl
@[simp] theorem State.onTx_ver : (s.onTx f).ver = s.ver := rfl
@[simp] theorem State.onTx_port : (s.onTx f).port = s.port := rfl
@[simp] theorem State.onTx_link : (s.onTx f).link = s.link := rfl
@[simp] theorem State.onTx_tx : (s.onTx f).tx = f s.tx := rfl
@[simp] theorem State.onTx_log : (s.onTx f).log = s.log := rfl
@[simp] theorem State.onTx_pending : (s.onTx f).pending = s.pending := rfl
end

section
variable (s : State) (f : Log → Log)
@[simp] theorem State.onLog_loader : (s.onLog f).loader = s.loader := rfl
@[simp] theorem State.onLog_settings : (s.onLog f).settings = s.settings := rfl
@[simp] theorem State.onLog_store : (s.onLog f).store = s.store := rfl
@[simp] theorem State.onLog_board : (s.onLog f).board = s.board := rfl
@[simp] theorem State.onLog_updates : (s.onLog f).updates = s.updates := rfl
@[simp] theorem State.onLog_adm : (s.onLog f).adm = s.adm := rfl
@[simp] theorem State.onLog_seq : (s.onLog f).seq = s.seq := rfl
@[simp] theorem State.onLog_ver : (s.onLog f).ver = s.ver := rfl
@[simp] theorem State.onLog_port : (s.onLog f).port = s.port := rfl
@[simp] theorem State.onLog_link : (s.onLog f).link = s.link := rfl
@[simp] theorem State.onLog_tx : (s.onLog f).tx = s.tx := rfl
@[simp] theorem State.onLog_log : (s.onLog f).log = f s.log := rfl
@[simp] theorem State.onLog_pending : (s.onLog f).pending = s.pending := rfl
end

section
variable (s : State)
@[simp] theorem State.drive_loader : s.drive.loader = s.loader := rfl
@[simp] theorem State.drive_settings : s.drive.settings = s.settings := rfl
@[simp] theorem State.drive_store : s.drive.store = s.store := rfl
@[simp] theorem State.drive_board : s.drive.board = s.board := rfl
@[simp] theorem State.drive_updates : s.drive.updates = s.updates := rfl
@[simp] theorem State.drive_adm : s.drive.adm = s.adm := rfl
@[simp] theorem State.drive_seq : s.drive.seq = s.seq := rfl
@[simp] theorem State.drive_ver : s.drive.ver = s.ver := rfl
@[simp] theorem State.drive_link : s.drive.link = s.link := rfl
@[simp] theorem State.drive_tx : s.drive.tx = s.tx := rfl
@[simp] theorem State.drive_log : s.drive.log = s.log := rfl
@[simp] theorem State.drive_pending : s.drive.pending = s.pending := rfl
@[simp] theorem State.drive_outputs : s.drive.port.outputs = s.lines := rfl
@[simp] theorem State.drive_indicators : s.drive.port.indicators = s.lights := rfl
end

end Sys2Proof.Machine
end

