-- ==== Sys2Proof/Laws/Fixed.lean ====
section
/-! SUPPORT. What no shared operation of the round, the admission unit and the link touches: the loader, the settings, the recipe store, the lane board, the field port and the queue of commands. One lemma for each operation. -/

namespace Sys2Proof.Machine

/-- The blocks that only the list controller, the field port's own commands and start-up change. -/
structure Fixed where
  loader : Loader
  settings : Settings
  store : Store
  board : Board
  port : Port
  pending : List Instr

/-- The fixed part of a state. -/
def State.fixed (s : State) : Fixed := ⟨s.loader, s.settings, s.store, s.board, s.port, s.pending⟩

theorem State.fixed_eq {s t : State} (h : t.fixed = s.fixed) :
    t.loader = s.loader ∧ t.settings = s.settings ∧ t.store = s.store ∧ t.board = s.board ∧ t.port = s.port
      ∧ t.pending = s.pending := by
  simpa [State.fixed] using h

section
variable (s : State)
@[simp] theorem State.fixed_onUpdates (f) : (s.onUpdates f).fixed = s.fixed := rfl
@[simp] theorem State.fixed_onAdm (f) : (s.onAdm f).fixed = s.fixed := rfl
@[simp] theorem State.fixed_onSeq (f) : (s.onSeq f).fixed = s.fixed := rfl
@[simp] theorem State.fixed_onVer (f) : (s.onVer f).fixed = s.fixed := rfl
@[simp] theorem State.fixed_onLink (f) : (s.onLink f).fixed = s.fixed := rfl
@[simp] theorem State.fixed_onTx (f) : (s.onTx f).fixed = s.fixed := rfl
@[simp] theorem State.fixed_onLog (f) : (s.onLog f).fixed = s.fixed := rfl
end

/-! ### Ops and Flags -/

section
variable (s : State)
@[simp] theorem State.fixed_sticky (f) : (s.sticky f).fixed = s.fixed := rfl
@[simp] theorem State.fixed_stickyIf (c f) : (s.stickyIf c f).fixed = s.fixed := by unfold State.stickyIf; split <;> rfl
@[simp] theorem State.fixed_placeOwn (c) : (s.placeOwn c).fixed = s.fixed := rfl
@[simp] theorem State.fixed_placeProduct (i c) : (s.placeProduct i c).fixed = s.fixed := rfl
@[simp] theorem State.fixed_placeStatus (b) (ms) : (s.placeStatus b ms).fixed = s.fixed := rfl
@[simp] theorem State.fixed_makeStatus : s.makeStatus.fixed = s.fixed := rfl
@[simp] theorem State.fixed_setRound (r) : (s.setRound r).fixed = s.fixed := by unfold State.setRound; split <;> rfl
@[simp] theorem State.fixed_enqueue (o) : (s.enqueue o).fixed = s.fixed := by unfold State.enqueue; dsimp only; split <;> rfl
@[simp] theorem State.fixed_dequeue : s.dequeue.fixed = s.fixed := by unfold State.dequeue; dsimp only; split <;> rfl
@[simp] theorem State.fixed_placeOp (o) : (s.placeOp o).fixed = s.fixed := by unfold State.placeOp; split <;> simp
@[simp] theorem State.fixed_opDone : s.opDone.fixed = s.fixed := by unfold State.opDone; split <;> simp
@[simp] theorem State.fixed_beginRecord : s.beginRecord.fixed = s.fixed := rfl
@[simp] theorem State.fixed_handResult (x) : (s.handResult x).fixed = s.fixed := rfl
@[simp] theorem State.fixed_completeRecord (o) : (s.completeRecord o).fixed = s.fixed := rfl
@[simp] theorem State.fixed_takeRecord : s.takeRecord.fixed = s.fixed := by
  unfold State.takeRecord; split <;> [rfl; (split <;> [rfl; (split <;> simp)])]
end

/-! ### Admission -/

section
variable (s : State)
@[simp] theorem State.fixed_requestEval (b) : (s.requestEval b).fixed = s.fixed := by
  unfold State.requestEval; split <;> [(split <;> simp); rfl]
@[simp] theorem State.fixed_enterRunning : s.enterRunning.fixed = s.fixed := by simp [State.enterRunning]
@[simp] theorem State.fixed_restartAttempt : s.restartAttempt.fixed = s.fixed := by simp [State.restartAttempt]
@[simp] theorem State.fixed_reportWaiting : s.reportWaiting.fixed = s.fixed := by
  unfold State.reportWaiting; split <;> [(split <;> simp); rfl]
@[simp] theorem State.fixed_reportClaiming : s.reportClaiming.fixed = s.fixed := by
  unfold State.reportClaiming; split <;> [(split <;> simp); rfl]
@[simp] theorem State.fixed_reportRunning : s.reportRunning.fixed = s.fixed := by
  unfold State.reportRunning; split <;> [(split <;> simp); rfl]
@[simp] theorem State.fixed_releaseRequest : s.releaseRequest.fixed = s.fixed := by
  unfold State.releaseRequest; split <;> [rfl; (dsimp only; split <;> [rfl; (split <;> simp)])]
@[simp] theorem State.fixed_receiveRequest (p t) : (s.receiveRequest p t).fixed = s.fixed := by
  unfold State.receiveRequest; dsimp only; split <;> simp
@[simp] theorem State.fixed_takeRequest : s.takeRequest.fixed = s.fixed := by
  unfold State.takeRequest; split <;> [rfl; (split <;> simp)]
@[simp] theorem State.fixed_placeAnnounce (st l) : (s.placeAnnounce st l).fixed = s.fixed := by simp [State.placeAnnounce]
@[simp] theorem State.fixed_chainRequest (p t) : (s.chainRequest p t).fixed = s.fixed := by
  unfold State.chainRequest; split <;> simp
end

/-! ### Rounds -/

section
variable (s : State)
@[simp] theorem State.fixed_openAttempt (i) : (s.openAttempt i).fixed = s.fixed := rfl
@[simp] theorem State.fixed_proceed : s.proceed.fixed = s.fixed := by unfold State.proceed; split <;> simp
@[simp] theorem State.fixed_enterStep (i c) : (s.enterStep i c).fixed = s.fixed := by
  unfold State.enterStep; dsimp only; split <;> simp
@[simp] theorem State.fixed_enterChained (i) : (s.enterChained i).fixed = s.fixed := by simp [State.enterChained]
@[simp] theorem State.fixed_endAttempt (o) : (s.endAttempt o).fixed = s.fixed := by unfold State.endAttempt; split <;> simp
@[simp] theorem State.fixed_releaseIfClaims : s.releaseIfClaims.fixed = s.fixed := by
  unfold State.releaseIfClaims; split <;> simp
@[simp] theorem State.fixed_takePending : s.takePending.fixed = s.fixed := by
  unfold State.takePending; split <;> [(split <;> simp); rfl]
@[simp] theorem State.fixed_roundRequest (i e) : (s.roundRequest i e).fixed = s.fixed := by
  unfold State.roundRequest; split <;> simp
@[simp] theorem State.fixed_recordTaken : s.recordTaken.fixed = s.fixed := by unfold State.recordTaken; split <;> simp
@[simp] theorem State.fixed_closeRound (o) : (s.closeRound o).fixed = s.fixed := by simp [State.closeRound]
@[simp] theorem State.fixed_cutRound (o) : (s.cutRound o).fixed = s.fixed := by unfold State.cutRound; split <;> simp
@[simp] theorem State.fixed_haltAttempt (o) : (s.haltAttempt o).fixed = s.fixed := by simp [State.haltAttempt]
@[simp] theorem State.fixed_enterSuspended (c) : (s.enterSuspended c).fixed = s.fixed := by simp [State.enterSuspended]
@[simp] theorem State.fixed_suspend (c) : (s.suspend c).fixed = s.fixed := by simp [State.suspend]
@[simp] theorem State.fixed_resumeRound (b) : (s.resumeRound b).fixed = s.fixed := by unfold State.resumeRound; split <;> simp
@[simp] theorem State.fixed_attemptDone : s.attemptDone.fixed = s.fixed := by
  unfold State.attemptDone; dsimp only; split <;> [simp; (split <;> simp)]
@[simp] theorem State.fixed_burstComplete : s.burstComplete.fixed = s.fixed := by
  unfold State.burstComplete; split <;> [(split <;> [(dsimp only; split <;> simp); simp]); rfl]
@[simp] theorem State.fixed_sensorLostReport : s.sensorLostReport.fixed = s.fixed := by
  unfold State.sensorLostReport; split <;> simp
@[simp] theorem State.fixed_standAgain : s.standAgain.fixed = s.fixed := by
  unfold State.standAgain; split <;> [simp; (split <;> simp)]
@[simp] theorem State.fixed_stopReported (a) : (s.stopReported a).fixed = s.fixed := by
  unfold State.stopReported; split <;> simp
@[simp] theorem State.fixed_stopAnswered (a) : (s.stopAnswered a).fixed = s.fixed := by
  unfold State.stopAnswered; split <;> [rfl; rfl; simp; (split <;> simp)]
@[simp] theorem State.fixed_seqDetached : s.seqDetached.fixed = s.fixed := by
  unfold State.seqDetached; split <;> [simp; (split <;> simp); rfl]
@[simp] theorem State.fixed_seqBarred : s.seqBarred.fixed = s.fixed := by unfold State.seqBarred; dsimp only; split <;> simp
end

/-! ### Control -/

section
variable (s : State)
@[simp] theorem State.fixed_updateOwn (st) : (s.updateOwn st).fixed = s.fixed := by simp [State.updateOwn]
@[simp] theorem State.fixed_claim : s.claim.fixed = s.fixed := by simp [State.claim]
@[simp] theorem State.fixed_stayWaiting : s.stayWaiting.fixed = s.fixed := by unfold State.stayWaiting; split <;> simp
@[simp] theorem State.fixed_yieldStep : s.yieldStep.fixed = s.fixed := by simp [State.yieldStep]
@[simp] theorem State.fixed_runPending : s.runPending.fixed = s.fixed := by simp [State.runPending]
@[simp] theorem State.fixed_grant : s.grant.fixed = s.fixed := by simp [State.grant]
@[simp] theorem State.fixed_stopRun (c) : (s.stopRun c).fixed = s.fixed := by simp [State.stopRun]
@[simp] theorem State.fixed_actVerdict (v) : (s.actVerdict v).fixed = s.fixed := by
  unfold State.actVerdict; split <;> [(split <;> simp); rfl]
@[simp] theorem State.fixed_notice (l) : (s.notice l).fixed = s.fixed := by unfold State.notice; split <;> simp
@[simp] theorem State.fixed_hallResult (l) : (s.hallResult l).fixed = s.fixed := by simp [State.hallResult]
@[simp] theorem State.fixed_ownResult (l) : (s.ownResult l).fixed = s.fixed := by simp [State.ownResult]
@[simp] theorem State.fixed_updateResult (st l) : (s.updateResult st l).fixed = s.fixed := by
  unfold State.updateResult; dsimp only; split <;> [(split <;> simp); simp]
@[simp] theorem State.fixed_actOutcome (o b) : (s.actOutcome o b).fixed = s.fixed := by
  unfold State.actOutcome
  split <;> [rfl; rfl; (split <;> simp); (split <;> [(split <;> simp); simp]); (split <;> simp)]
@[simp] theorem State.fixed_requestWanted : s.requestWanted.fixed = s.fixed := by unfold State.requestWanted; split <;> simp
@[simp] theorem State.fixed_outcome (o) : (s.outcome o).fixed = s.fixed := by
  unfold State.outcome; dsimp only; rw [State.fixed_requestWanted]; split <;> [(split <;> simp); simp]
@[simp] theorem State.fixed_ownDelivered (c) : (s.ownDelivered c).fixed = s.fixed := by
  unfold State.ownDelivered; dsimp only; split <;> simp
@[simp] theorem State.fixed_productDelivered (i c) : (s.productDelivered i c).fixed = s.fixed := by
  unfold State.productDelivered; split <;> rfl
@[simp] theorem State.fixed_placeHold (i r) : (s.placeHold i r).fixed = s.fixed := rfl
@[simp] theorem State.fixed_beginHold (i r) : (s.beginHold i r).fixed = s.fixed := by simp [State.beginHold]
@[simp] theorem State.fixed_endHold (i r) : (s.endHold i r).fixed = s.fixed := by simp [State.endHold]
@[simp] theorem State.fixed_judgeHold (i) : (s.judgeHold i).fixed = s.fixed := by
  unfold State.judgeHold; split <;> [rfl; (split <;> [(split <;> [simp; (split <;> simp)]); rfl])]
@[simp] theorem State.fixed_judgeHolds : s.judgeHolds.fixed = s.fixed := by
  unfold State.judgeHolds; exact List.foldlRecOn (motive := fun t : State => t.fixed = s.fixed) allFour State.judgeHold rfl fun t h i _ => by simpa using h
@[simp] theorem State.fixed_dropHold (i) : (s.dropHold i).fixed = s.fixed := by
  unfold State.dropHold; split <;> [(split <;> simp); rfl]
@[simp] theorem State.fixed_admReticent : s.admReticent.fixed = s.fixed := by unfold State.admReticent; split <;> simp
@[simp] theorem State.fixed_admEngaged : s.admEngaged.fixed = s.fixed := by unfold State.admEngaged; split <;> simp
theorem State.fixed_dropHolds : (allFour.foldl State.dropHold s).fixed = s.fixed :=
  List.foldlRecOn (motive := fun t : State => t.fixed = s.fixed) allFour State.dropHold rfl fun t h i _ => by simpa using h
theorem State.fixed_emptyProducts : (allFour.foldl (fun s i => s.placeProduct i none) s).fixed = s.fixed :=
  List.foldlRecOn (motive := fun t : State => t.fixed = s.fixed) allFour _ rfl fun t h i _ => by simpa using h
@[simp] theorem State.fixed_admDetached : s.admDetached.fixed = s.fixed := by
  unfold State.admDetached
  simp only [State.fixed_onAdm, State.fixed_emptyProducts, State.fixed_placeOwn, State.fixed_dropHolds]
  split <;> simp
end

/-! ### The link -/

section
variable (s : State)
@[simp] theorem State.fixed_enterDetached : s.enterDetached.fixed = s.fixed := by simp [State.enterDetached]
@[simp] theorem State.fixed_enterBarred : s.enterBarred.fixed = s.fixed := by simp [State.enterBarred]
@[simp] theorem State.fixed_enterReticent : s.enterReticent.fixed = s.fixed := by simp [State.enterReticent]
@[simp] theorem State.fixed_returnEngaged : s.returnEngaged.fixed = s.fixed := by simp [State.returnEngaged]
@[simp] theorem State.fixed_judgeLink : s.judgeLink.fixed = s.fixed := by
  unfold State.judgeLink; split <;> [simp; (split <;> [simp; (split <;> simp)])]
@[simp] theorem State.fixed_moveCounts (a b) : (s.moveCounts a b).fixed = s.fixed := by
  unfold State.moveCounts; split <;> simp
@[simp] theorem State.fixed_tecUp : s.tecUp.fixed = s.fixed := by simp [State.tecUp]
@[simp] theorem State.fixed_tecDown : s.tecDown.fixed = s.fixed := by simp [State.tecDown]
@[simp] theorem State.fixed_recUp : s.recUp.fixed = s.fixed := by simp [State.recUp]
@[simp] theorem State.fixed_recDown : s.recDown.fixed = s.fixed := by simp [State.recDown]
@[simp] theorem State.fixed_frameOver (a) : (s.frameOver a).fixed = s.fixed := rfl
@[simp] theorem State.fixed_checkFailed (a) : (s.checkFailed a).fixed = s.fixed := by
  unfold State.checkFailed; dsimp only; split <;> simp
@[simp] theorem State.fixed_command (c) : (s.command c).fixed = s.fixed := by unfold State.command; split <;> simp
@[simp] theorem State.fixed_enqueueIf (o) : (s.enqueueIf o).fixed = s.fixed := by unfold State.enqueueIf; split <;> simp
@[simp] theorem State.fixed_handOn (k f) : (s.handOn k f).fixed = s.fixed := by
  unfold State.handOn; split <;> [simp; simp; simp; simp; (split <;> simp); rfl]
@[simp] theorem State.fixed_deliveredFrame (k f) : (s.deliveredFrame k f).fixed = s.fixed := by
  unfold State.deliveredFrame; dsimp only; split <;> [simp; (split <;> [(split <;> simp); rfl])]
@[simp] theorem State.fixed_receiveFrame (k f) : (s.receiveFrame k f).fixed = s.fixed := by
  unfold State.receiveFrame; dsimp only; split <;> [(split <;> [(split <;> simp); simp]); rfl]
@[simp] theorem State.fixed_fragmentDelivered : s.fragmentDelivered.fixed = s.fixed := by
  unfold State.fragmentDelivered; split <;> [rfl; (split <;> simp)]
@[simp] theorem State.fixed_currentDelivery (x) : (s.currentDelivery x).fixed = s.fixed := by
  unfold State.currentDelivery; split <;> [(split <;> simp); (split <;> simp); simp; simp]
@[simp] theorem State.fixed_handOutcome (o) : (s.handOutcome o).fixed = s.fixed := by
  unfold State.handOutcome; split <;> [rfl; (dsimp only; split <;> [(split <;> simp); rfl; rfl; rfl])]
@[simp] theorem State.fixed_tecMove (o) : (s.tecMove o).fixed = s.fixed := by unfold State.tecMove; split <;> simp
@[simp] theorem State.fixed_offer : s.offer.fixed = s.fixed := by unfold State.offer; split <;> [(split <;> rfl); rfl]
end

/-! ### The end of a command -/

section
variable (s : State)
@[simp] theorem State.finish_loader : s.finish.loader = s.loader := (State.fixed_eq (State.fixed_offer s)).1
@[simp] theorem State.finish_settings : s.finish.settings = s.settings := (State.fixed_eq (State.fixed_offer s)).2.1
@[simp] theorem State.finish_store : s.finish.store = s.store := (State.fixed_eq (State.fixed_offer s)).2.2.1
@[simp] theorem State.finish_board : s.finish.board = s.board := (State.fixed_eq (State.fixed_offer s)).2.2.2.1
@[simp] theorem State.finish_pending : s.finish.pending = s.pending := (State.fixed_eq (State.fixed_offer s)).2.2.2.2.2
theorem State.offer_port : s.offer.port = s.port := (State.fixed_eq (State.fixed_offer s)).2.2.2.2.1
@[simp] theorem State.finish_updates : s.finish.updates = s.updates := by
  unfold State.finish State.offer; split <;> [(split <;> rfl); rfl]
@[simp] theorem State.finish_adm : s.finish.adm = s.adm := by
  unfold State.finish State.offer; split <;> [(split <;> rfl); rfl]
@[simp] theorem State.finish_seq : s.finish.seq = s.seq := by
  unfold State.finish State.offer; split <;> [(split <;> rfl); rfl]
@[simp] theorem State.finish_ver : s.finish.ver = s.ver := by
  unfold State.finish State.offer; split <;> [(split <;> rfl); rfl]
@[simp] theorem State.finish_log : s.finish.log = s.log := by
  unfold State.finish State.offer; split <;> [(split <;> rfl); rfl]
/-- The port at the end of a command differs in the driven lines alone. -/
theorem State.finish_port :
    s.finish.port = { s.port with outputs := s.finish.port.outputs, indicators := s.finish.port.indicators } := by
  have h : s.finish.port = { s.offer.port with outputs := s.offer.lines, indicators := s.offer.lights } := rfl
  rw [h, State.offer_port]
/-- Where no choice may be made, nothing is offered. -/
theorem State.offer_of_not (h : s.mayOffer = false) : s.offer = s := by simp [State.offer, h]
end

end Sys2Proof.Machine
end

