-- ==== Sys2Proof/Laws/Frame.lean ====
section
/-! SUPPORT. The frame of a command: what the end of every command (offer and drive) leaves, and how `Untouched` follows from the effect before it. -/

namespace Sys2Proof.Machine

/-! ### The end of a command -/

theorem SamePort.refl (p : Port) : SamePort p p := rfl
theorem SameLink.refl (l : Link) : SameLink l l := rfl
theorem SameTx.refl (t : Selector) : SameTx t t := rfl
theorem SamePort.trans {p q r : Port} (h : SamePort p q) (k : SamePort q r) : SamePort p r := by
  cases p; cases q; cases r; simp_all [SamePort]
theorem SameLink.trans {p q r : Link} (h : SameLink p q) (k : SameLink q r) : SameLink p r := by
  cases p; cases q; cases r; simp_all [SameLink]
theorem SameTx.trans {p q r : Selector} (h : SameTx p q) (k : SameTx q r) : SameTx p r := by
  cases p; cases q; cases r; simp_all [SameTx]

/-- Offer and drive change the driven lines of the port alone. -/
theorem State.finish_samePort (s : State) : SamePort s.port s.finish.port := State.finish_port s

/-- Offer and drive begin at most an own frame on the link. -/
theorem State.finish_sameLink (s : State) : SameLink s.link s.finish.link := by
  unfold State.finish State.offer
  split
  · split <;> rfl
  · rfl

/-- Offer and drive make at most a choice in the selector: every slot keeps its content. -/
theorem State.finish_sameTx (s : State) : SameTx s.tx s.finish.tx := by
  unfold State.finish State.offer
  split
  · split <;> rfl
  · rfl

@[simp] theorem State.finish_own (s : State) : s.finish.tx.own = s.tx.own := by
  unfold State.finish State.offer; split <;> [(split <;> rfl); rfl]
@[simp] theorem State.finish_product (s : State) : s.finish.tx.product = s.tx.product := by
  unfold State.finish State.offer; split <;> [(split <;> rfl); rfl]
@[simp] theorem State.finish_status (s : State) : s.finish.tx.status = s.tx.status := by
  unfold State.finish State.offer; split <;> [(split <;> rfl); rfl]
@[simp] theorem State.finish_linkState (s : State) : s.finish.link.state = s.link.state := by
  unfold State.finish State.offer; split <;> [(split <;> rfl); rfl]
@[simp] theorem State.finish_tec (s : State) : s.finish.link.tec = s.link.tec := by
  unfold State.finish State.offer; split <;> [(split <;> rfl); rfl]
@[simp] theorem State.finish_rec (s : State) : s.finish.link.recCount = s.link.recCount := by
  unfold State.finish State.offer; split <;> [(split <;> rfl); rfl]
@[simp] theorem State.finish_quiet (s : State) : s.finish.link.quiet = s.link.quiet := by
  unfold State.finish State.offer; split <;> [(split <;> rfl); rfl]
@[simp] theorem State.finish_answer (s : State) : s.finish.link.answer = s.link.answer := by
  unfold State.finish State.offer; split <;> [(split <;> rfl); rfl]
@[simp] theorem State.finish_line (s : State) (x : Input) : s.finish.port.line x = s.port.line x := by
  rw [State.finish_port]; cases x <;> rfl

/-- No choice is made on a busy medium. -/
theorem State.finish_link_busy (s : State) (h : s.link.medium = .busy) : s.finish.link = s.link := by
  unfold State.finish State.offer State.mayOffer; simp [h, State.drive]
theorem State.finish_tx_busy (s : State) (h : s.link.medium = .busy) : s.finish.tx = s.tx := by
  unfold State.finish State.offer State.mayOffer; simp [h, State.drive]

/-! ### Untouched -/

/-- A command's frame is the frame of its effect before offer and drive. -/
theorem Untouched.finish {but : List Block} {s u : State} (h : Untouched but s u) : Untouched but s u.finish where
  loader n := by simpa using h.loader n
  settings n := by simpa using h.settings n
  store n := by simpa using h.store n
  board n := by simpa using h.board n
  updates n := by simpa using h.updates n
  adm n := by simpa using h.adm n
  seq n := by simpa using h.seq n
  ver n := by simpa using h.ver n
  port n := (h.port n).trans (State.finish_samePort u)
  link n := (h.link n).trans (State.finish_sameLink u)
  tx n := (h.tx n).trans (State.finish_sameTx u)
  log n := by simpa using h.log n
  pending := by simpa using h.pending

/-- A state's frame against itself. -/
theorem Untouched.refl (but : List Block) (s : State) : Untouched but s s :=
  ⟨fun _ => rfl, fun _ => rfl, fun _ => rfl, fun _ => rfl, fun _ => rfl, fun _ => rfl, fun _ => rfl, fun _ => rfl,
    fun _ => rfl, fun _ => rfl, fun _ => rfl, fun _ => rfl, rfl⟩

/-- Frames compose. -/
theorem Untouched.trans {but : List Block} {s t u : State} (h : Untouched but s t) (k : Untouched but t u) :
    Untouched but s u where
  loader n := (k.loader n).trans (h.loader n)
  settings n := (k.settings n).trans (h.settings n)
  store n := (k.store n).trans (h.store n)
  board n := (k.board n).trans (h.board n)
  updates n := (k.updates n).trans (h.updates n)
  adm n := (k.adm n).trans (h.adm n)
  seq n := (k.seq n).trans (h.seq n)
  ver n := (k.ver n).trans (h.ver n)
  port n := (h.port n).trans (k.port n)
  link n := (h.link n).trans (k.link n)
  tx n := (h.tx n).trans (k.tx n)
  log n := (k.log n).trans (h.log n)
  pending := k.pending.trans h.pending

/-- A frame may name more blocks. -/
theorem Untouched.mono {but more : List Block} {s t : State} (h : Untouched but s t) (k : but ⊆ more) :
    Untouched more s t where
  loader n := h.loader fun m => n (k m)
  settings n := h.settings fun m => n (k m)
  store n := h.store fun m => n (k m)
  board n := h.board fun m => n (k m)
  updates n := h.updates fun m => n (k m)
  adm n := h.adm fun m => n (k m)
  seq n := h.seq fun m => n (k m)
  ver n := h.ver fun m => n (k m)
  port n := h.port fun m => n (k m)
  link n := h.link fun m => n (k m)
  tx n := h.tx fun m => n (k m)
  log n := h.log fun m => n (k m)
  pending := h.pending

section
variable (s : State)
theorem Untouched.onLoader (f) : Untouched [.loader] s (s.onLoader f) := by constructor <;> intros <;> first | rfl | simp_all
theorem Untouched.onBoard (f) : Untouched [.board] s (s.onBoard f) := by constructor <;> intros <;> first | rfl | simp_all
theorem Untouched.onUpdates (f) : Untouched [.updates] s (s.onUpdates f) := by constructor <;> intros <;> first | rfl | simp_all
theorem Untouched.onAdm (f) : Untouched [.adm] s (s.onAdm f) := by constructor <;> intros <;> first | rfl | simp_all
theorem Untouched.onSeq (f) : Untouched [.seq] s (s.onSeq f) := by constructor <;> intros <;> first | rfl | simp_all
theorem Untouched.onVer (f) : Untouched [.ver] s (s.onVer f) := by constructor <;> intros <;> first | rfl | simp_all
theorem Untouched.onPort (f) : Untouched [.port] s (s.onPort f) := by constructor <;> intros <;> first | rfl | simp_all
theorem Untouched.onLink (f) : Untouched [.link] s (s.onLink f) := by constructor <;> intros <;> first | rfl | simp_all
theorem Untouched.onTx (f) : Untouched [.tx] s (s.onTx f) := by constructor <;> intros <;> first | rfl | simp_all
theorem Untouched.onLog (f) : Untouched [.log] s (s.onLog f) := by constructor <;> intros <;> first | rfl | simp_all
theorem Untouched.sticky (f) : Untouched [.log] s (s.sticky f) := Untouched.onLog s _
theorem Untouched.stickyIf (c f) : Untouched [.log] s (s.stickyIf c f) := by
  unfold State.stickyIf; split <;> [exact Untouched.sticky s f; exact .refl _ s]
theorem Untouched.placeOwn (c) : Untouched [.tx] s (s.placeOwn c) := Untouched.onTx s _
theorem Untouched.placeProduct (i c) : Untouched [.tx] s (s.placeProduct i c) := Untouched.onTx s _
theorem Untouched.makeStatus : Untouched [.tx, .log] s s.makeStatus :=
  ((Untouched.onTx s _).mono (by simp)).trans ((Untouched.onLog _ _).mono (by simp))
theorem Untouched.setRound (r) : Untouched [.seq, .tx, .log] s (s.setRound r) := by
  unfold State.setRound; split
  · exact .refl _ s
  · exact ((Untouched.onSeq s _).mono (by simp)).trans ((Untouched.makeStatus _).mono (by simp))
/-- Only the note that hold-off has moved changes in the link controller. -/
theorem Untouched.holdOffMoved (v : Bool) : Untouched [] s (s.onLink fun l => { l with holdOffMoved := v }) := by
  constructor <;> intros <;> rfl
theorem Untouched.enqueue (o) : Untouched [.updates, .log] s (s.enqueue o) := by
  unfold State.enqueue; dsimp only; split
  · exact (((Untouched.onUpdates s _).mono (by simp)).trans ((Untouched.onUpdates _ _).mono (by simp))).trans
      (((Untouched.holdOffMoved _ _).mono (by simp)).trans ((Untouched.sticky _ _).mono (by simp)))
  · exact (Untouched.onUpdates s _).mono (by simp)
theorem Untouched.dequeue : Untouched [.updates] s s.dequeue := by
  unfold State.dequeue; dsimp only; split
  · exact (((Untouched.onUpdates s _).mono (by simp)).trans ((Untouched.onUpdates _ _).mono (by simp))).trans
      ((Untouched.holdOffMoved _ _).mono (by simp))
  · exact (Untouched.onUpdates s _).mono (by simp)
theorem Untouched.placeOp (o) : Untouched [.updates, .adm, .log] s (s.placeOp o) := by
  unfold State.placeOp; split
  · exact ((Untouched.onAdm s _).mono (by simp)).trans ((Untouched.enqueue _ _).mono (by simp))
  · exact (Untouched.onAdm s _).mono (by simp)
theorem Untouched.opDone : Untouched [.updates, .adm, .log] s s.opDone := by
  unfold State.opDone; split
  · exact (Untouched.onAdm s _).mono (by simp)
  · exact ((Untouched.onAdm s _).mono (by simp)).trans ((Untouched.enqueue _ _).mono (by simp))
theorem Untouched.requestEval (b) : Untouched [.updates, .adm, .log] s (s.requestEval b) := by
  unfold State.requestEval; split <;> [split; skip]
  · exact ((Untouched.onAdm s _).mono (by simp)).trans (Untouched.placeOp _ _)
  · exact (Untouched.onAdm s _).mono (by simp)
  · exact .refl _ s
theorem Untouched.placeAnnounce (st l) : Untouched [.adm, .tx] s (s.placeAnnounce st l) :=
  ((Untouched.placeOwn s _).mono (by simp)).trans ((Untouched.onAdm _ _).mono (by simp))
end

end Sys2Proof.Machine
end

