-- ==== Sys2Proof/Laws/Queue.lean ====
section
/-! SUPPORT. Places of tables, and what each operation on the update queue can do: `enqueue`, `dequeue`, `placeOp`, `opDone` and `requestEval` (R8, R9, R33). -/

namespace Sys2Proof.Machine

theorem modAt_get {α : Type} {n : Nat} (v : Vector α n) (i j : Fin n) (f : α → α) :
    (modAt v i f)[j] = if j = i then f v[i] else v[j] := by
  unfold modAt
  by_cases h : j = i
  · subst h; simp
  · have : i.val ≠ j.val := fun e => h (Fin.ext e.symm)
    simp [h, this]

@[simp] theorem modAt_getElem {α : Type} {n : Nat} (v : Vector α n) (i j : Fin n) (f : α → α) :
    (modAt v i f)[j.val] = if j = i then f v[i.val] else v[j.val] := modAt_get v i j f

@[simp] theorem mapAll_getElem {α β : Type} {n : Nat} (v : Vector α n) (f : α → β) (i : Fin n) :
    (mapAll v f)[i.val] = f v[i.val] := by simp [mapAll]

/-! ### The record unit's flags -/

theorem SameLog.refl (a : Log) : SameLog a a := .inl rfl
@[simp] theorem Log.setFlag_setFlag (a : Log) (f : Sticky) : (a.setFlag f).setFlag f = a.setFlag f := by
  simp [Log.setFlag, BitVec.or_assoc]
theorem SameLog.trans {a b c : Log} (h : SameLog a b) (k : SameLog b c) : SameLog a c := by
  rcases h with rfl | rfl <;> rcases k with rfl | rfl
  · exact .inl rfl
  · exact .inr rfl
  · exact .inr rfl
  · exact .inr (by simp)

/-! ### The update queue -/

section
variable (s : State)
@[simp] theorem State.enqueue_adm (o) : (s.enqueue o).adm = s.adm := by unfold State.enqueue; dsimp only; split <;> rfl
@[simp] theorem State.enqueue_tx (o) : (s.enqueue o).tx = s.tx := by unfold State.enqueue; dsimp only; split <;> rfl
@[simp] theorem State.enqueue_seq (o) : (s.enqueue o).seq = s.seq := by unfold State.enqueue; dsimp only; split <;> rfl
@[simp] theorem State.enqueue_ver (o) : (s.enqueue o).ver = s.ver := by unfold State.enqueue; dsimp only; split <;> rfl
@[simp] theorem State.enqueue_linkState (o) : (s.enqueue o).link.state = s.link.state := by
  unfold State.enqueue; dsimp only; split <;> rfl
@[simp] theorem State.enqueue_ops (o) : (s.enqueue o).updates.ops = s.updates.ops ++ [o] := by
  unfold State.enqueue; dsimp only; split <;> rfl

@[simp] theorem State.placeOp_tx (o) : (s.placeOp o).tx = s.tx := by unfold State.placeOp; split <;> simp
@[simp] theorem State.placeOp_seq (o) : (s.placeOp o).seq = s.seq := by unfold State.placeOp; split <;> simp
@[simp] theorem State.placeOp_ver (o) : (s.placeOp o).ver = s.ver := by unfold State.placeOp; split <;> simp
@[simp] theorem State.placeOp_linkState (o) : (s.placeOp o).link.state = s.link.state := by
  unfold State.placeOp; split <;> simp
/-- An own operation is placed, or waits in the admission unit (R33). -/
theorem State.placeOp_adm (o) :
    (s.placeOp o).adm =
      if s.adm.outstanding < 2 then { s.adm with outstanding := s.adm.outstanding + 1 }
      else { s.adm with waiting := s.adm.waiting ++ [o] } := by
  unfold State.placeOp Config.outstandingMax; split <;> simp [*]
theorem State.placeOp_ops (o) :
    (s.placeOp o).updates.ops = if s.adm.outstanding < 2 then s.updates.ops ++ [o] else s.updates.ops := by
  unfold State.placeOp Config.outstandingMax; split <;> simp [*]
@[simp] theorem State.placeOp_holds (o) : (s.placeOp o).adm.holds = s.adm.holds := by
  rw [State.placeOp_adm]; split <;> rfl
@[simp] theorem State.placeOp_own (o) : (s.placeOp o).adm.own = s.adm.own := by
  rw [State.placeOp_adm]; split <;> rfl
@[simp] theorem State.placeOp_standing (o) : (s.placeOp o).adm.standing = s.adm.standing := by
  rw [State.placeOp_adm]; split <;> rfl
@[simp] theorem State.placeOp_state (o) : (s.placeOp o).adm.state = s.adm.state := by
  rw [State.placeOp_adm]; split <;> rfl
@[simp] theorem State.placeOp_learning (o) : (s.placeOp o).adm.learning = s.adm.learning := by
  rw [State.placeOp_adm]; split <;> rfl
theorem State.enqueue_log (o) : SameLog s.log (s.enqueue o).log := by
  unfold State.enqueue; dsimp only; split
  · exact .inr rfl
  · exact .inl rfl
theorem State.placeOp_log (o) : SameLog s.log (s.placeOp o).log := by
  unfold State.placeOp; split
  · exact State.enqueue_log _ _
  · exact .inl rfl
theorem State.placeOp_prefix (o) : s.updates.ops <+: (s.placeOp o).updates.ops := by
  rw [State.placeOp_ops]; split <;> simp
@[simp] theorem State.dequeue_ops : s.dequeue.updates.ops = s.updates.ops.tail := by
  unfold State.dequeue; dsimp only; split <;> rfl
@[simp] theorem State.dequeue_adm : s.dequeue.adm = s.adm := by unfold State.dequeue; dsimp only; split <;> rfl
@[simp] theorem State.dequeue_seq : s.dequeue.seq = s.seq := by unfold State.dequeue; dsimp only; split <;> rfl
@[simp] theorem State.dequeue_ver : s.dequeue.ver = s.ver := by unfold State.dequeue; dsimp only; split <;> rfl
@[simp] theorem State.dequeue_tx : s.dequeue.tx = s.tx := by unfold State.dequeue; dsimp only; split <;> rfl
@[simp] theorem State.dequeue_log : s.dequeue.log = s.log := by unfold State.dequeue; dsimp only; split <;> rfl
@[simp] theorem State.dequeue_linkState : s.dequeue.link.state = s.link.state := by
  unfold State.dequeue; dsimp only; split <;> rfl

/-- An own operation's result: one fewer outstanding, unless one that waits takes its place (R33). -/
theorem State.opDone_adm :
    s.opDone.adm =
      match s.adm.waiting with
      | [] => { s.adm with outstanding := s.adm.outstanding - 1 }
      | _ :: rest => { s.adm with waiting := rest } := by
  unfold State.opDone; split <;> simp [*]
theorem State.opDone_ops : s.opDone.updates.ops = s.updates.ops ++ s.adm.waiting.head?.toList := by
  unfold State.opDone; split <;> simp [*]
@[simp] theorem State.opDone_tx : s.opDone.tx = s.tx := by unfold State.opDone; split <;> simp
@[simp] theorem State.opDone_seq : s.opDone.seq = s.seq := by unfold State.opDone; split <;> simp
@[simp] theorem State.opDone_ver : s.opDone.ver = s.ver := by unfold State.opDone; split <;> simp
@[simp] theorem State.opDone_linkState : s.opDone.link.state = s.link.state := by unfold State.opDone; split <;> simp
theorem State.opDone_log : SameLog s.log s.opDone.log := by
  unfold State.opDone; split
  · exact .inl rfl
  · exact State.enqueue_log _ _

/-- A trigger requests an evaluation, marks one as wanted, or finds the step in no state to be evaluated (R32, R33). -/
theorem State.requestEval_cases (b : Bool) :
    (¬(s.canEvaluate = true ∧ s.adm.own.evaluated = true) ∧ s.requestEval b = s) ∨
    ((s.canEvaluate = true ∧ s.adm.own.evaluated = true) ∧ s.adm.evalReq = none ∧
      s.requestEval b = (s.onAdm fun a => { a with evalReq := some ⟨a.stay, b⟩ }).placeOp .evaluate) ∨
    ((s.canEvaluate = true ∧ s.adm.own.evaluated = true) ∧ s.adm.evalReq ≠ none ∧
      s.requestEval b = s.onAdm fun a => { a with wanted := true, wantedSettle := a.wantedSettle || b }) := by
  unfold State.requestEval
  by_cases h : s.canEvaluate = true ∧ s.adm.own.evaluated = true
  · cases h2 : s.adm.evalReq <;> simp [h]
  · refine .inl ⟨h, ?_⟩
    rw [if_neg]; simpa using h
@[simp] theorem State.requestEval_tx (b) : (s.requestEval b).tx = s.tx := by
  rcases s.requestEval_cases b with ⟨-, h⟩ | ⟨-, -, h⟩ | ⟨-, -, h⟩ <;> simp [h]
@[simp] theorem State.requestEval_seq (b) : (s.requestEval b).seq = s.seq := by
  rcases s.requestEval_cases b with ⟨-, h⟩ | ⟨-, -, h⟩ | ⟨-, -, h⟩ <;> simp [h]
@[simp] theorem State.requestEval_ver (b) : (s.requestEval b).ver = s.ver := by
  rcases s.requestEval_cases b with ⟨-, h⟩ | ⟨-, -, h⟩ | ⟨-, -, h⟩ <;> simp [h]
@[simp] theorem State.requestEval_linkState (b) : (s.requestEval b).link.state = s.link.state := by
  rcases s.requestEval_cases b with ⟨-, h⟩ | ⟨-, -, h⟩ | ⟨-, -, h⟩ <;> simp [h]
theorem State.requestEval_log (b) : SameLog s.log (s.requestEval b).log := by
  rcases s.requestEval_cases b with ⟨-, h⟩ | ⟨-, -, h⟩ | ⟨-, -, h⟩ <;> rw [h]
  · exact .inl rfl
  · exact State.placeOp_log _ _
  · exact .inl rfl
theorem State.requestEval_prefix (b) : s.updates.ops <+: (s.requestEval b).updates.ops := by
  rcases s.requestEval_cases b with ⟨-, h⟩ | ⟨-, -, h⟩ | ⟨-, -, h⟩ <;> rw [h]
  · exact State.placeOp_prefix (s.onAdm _) _
  · exact List.prefix_rfl

/-- What an evaluation request keeps of the admission unit. -/
structure SameStep (a b : Admission) : Prop where
  own : b.own = a.own
  standing : b.standing = a.standing
  urgency : b.urgency = a.urgency
  aging : b.aging = a.aging
  holds : b.holds = a.holds
  state : b.state = a.state
  learning : b.learning = a.learning
  stay : b.stay = a.stay
  last : b.last = a.last
  settle : b.settle = a.settle
  lapse : b.lapse = a.lapse
  refresh : b.refresh = a.refresh
  guard : b.guard = a.guard
theorem SameStep.refl (a : Admission) : SameStep a a := ⟨rfl, rfl, rfl, rfl, rfl, rfl, rfl, rfl, rfl, rfl, rfl, rfl, rfl⟩
theorem State.placeOp_step (o) : SameStep s.adm (s.placeOp o).adm := by
  rw [State.placeOp_adm]; split <;> constructor <;> rfl
theorem State.opDone_step : SameStep s.adm s.opDone.adm := by
  rw [State.opDone_adm]; split <;> constructor <;> rfl
theorem State.requestEval_step (b) : SameStep s.adm (s.requestEval b).adm := by
  rcases s.requestEval_cases b with ⟨-, h⟩ | ⟨-, -, h⟩ | ⟨-, -, h⟩ <;> rw [h]
  · exact .refl _
  · have := State.placeOp_step (s.onAdm fun a => { a with evalReq := some ⟨a.stay, b⟩ }) .evaluate
    exact ⟨this.own, this.standing, this.urgency, this.aging, this.holds, this.state, this.learning, this.stay, this.last,
      this.settle, this.lapse, this.refresh, this.guard⟩
  · constructor <;> rfl
end

end Sys2Proof.Machine
end

