-- ==== Sys2Proof/Laws/Holds.lean ====
section
/-! SUPPORT. What judging the product holds does (R52 to R54): each hold by itself, and all four in order. -/

namespace Sys2Proof.Machine

/-! ### One hold -/

/-- The place of a hold: which of the four lines its slot stands at. -/
@[simp] theorem placeProduct_get (s : State) (i j : Fin 4) (c) :
    ((s.placeProduct i c).tx.product)[j.val] = if j = i then c else (s.tx.product)[j.val] := by
  simp only [State.placeProduct, State.onTx_tx]
  rw [modAt_getElem]

section
variable (s : State) (i : Fin 4)
@[simp] theorem State.judgeHold_settings : (s.judgeHold i).settings = s.settings :=
  (State.fixed_eq (State.fixed_judgeHold s i)).2.1
@[simp] theorem State.judgeHold_port : (s.judgeHold i).port = s.port :=
  (State.fixed_eq (State.fixed_judgeHold s i)).2.2.2.2.1
@[simp] theorem State.judgeHold_linkState : (s.judgeHold i).link.state = s.link.state := by
  unfold State.judgeHold State.beginHold State.endHold State.placeHold
  repeat' split
  all_goals first | rfl | simp [State.placeProduct]

/-- Which resources have holds, and where, follows from the settings alone. -/
theorem lineRes_congr {s t : State} (h : t.settings = s.settings) (i : Fin 4) : t.lineRes i = s.lineRes i := by
  simp [State.lineRes, h]
theorem holdRes_congr {s t : State} (h : t.settings = s.settings) (i : Fin 4) : t.holdRes i = s.holdRes i := by
  simp [State.holdRes, lineRes_congr h]
theorem holdWanted_congr {s t : State} (h : t.settings = s.settings) (k : t.port.prod = s.port.prod) (r : Res) :
    t.holdWanted r = s.holdWanted r := by
  simp [State.holdWanted, lineRes_congr h, k]
theorem onLine_congr {s t : State} (h : t.link.state = s.link.state) : t.onLine = s.onLine := by
  simp [State.onLine, h]

/-- A hold that begins, ends or stays: its own place, and no other. -/
theorem State.judgeHold_holds (j : Fin 4) :
    ((s.judgeHold i).adm.holds)[j] =
      match s.holdRes i with
      | none => (s.adm.holds)[j]
      | some r =>
        if j = i ∧ s.onLine = true ∧ s.holdWanted r ≠ (s.adm.holds[i]).holding then ⟨s.holdWanted r, .stopped⟩
        else (s.adm.holds)[j] := by
  unfold State.judgeHold
  cases h : s.holdRes i with
  | none => rfl
  | some r =>
    dsimp only
    cases h1 : s.onLine <;> cases h2 : s.holdWanted r <;> cases h3 : (s.adm.holds[i]).holding <;>
      simp [State.beginHold, State.endHold, State.placeHold, State.placeProduct]

theorem State.judgeHold_product (j : Fin 4) :
    ((s.judgeHold i).tx.product)[j] =
      match s.holdRes i with
      | none => (s.tx.product)[j]
      | some r =>
        if j = i ∧ s.onLine = true ∧ s.holdWanted r ≠ (s.adm.holds[i]).holding then
          some (if s.holdWanted r then .announce s.settings.leaseLife r else .release r)
        else (s.tx.product)[j] := by
  unfold State.judgeHold
  cases h : s.holdRes i with
  | none => rfl
  | some r =>
    have hs : ∀ o, (s.placeOp o).settings = s.settings := fun o => (State.fixed_eq (State.fixed_placeOp s o)).2.1
    dsimp only
    cases h1 : s.onLine <;> cases h2 : s.holdWanted r <;> cases h3 : (s.adm.holds[i]).holding <;>
      simp [State.beginHold, State.endHold, State.placeHold, hs]

theorem Untouched.judgeHold : Untouched [.updates, .adm, .tx, .log] s (s.judgeHold i) := by
  unfold State.judgeHold State.beginHold State.endHold State.placeHold
  split <;> [exact .refl _ s; skip]
  split <;> [skip; exact .refl _ s]
  split <;> [skip; (split <;> [skip; exact .refl _ s])]
  all_goals
    exact (((Untouched.placeOp s _).mono (by simp)).trans ((Untouched.onAdm _ _).mono (by simp))).trans
      ((Untouched.placeProduct _ _ _).mono (by simp))
end

/-! ### All four -/

/-- How judging leaves a hold and its slot: as its lines want while the node is on the line, the slot holding the announcement or
the release of a change. -/
def State.judgedHold (s : State) (i : Fin 4) : Hold × Option ProdFrame :=
  match s.holdRes i with
  | none => ((s.adm.holds)[i], (s.tx.product)[i])
  | some r =>
    if s.onLine = true ∧ s.holdWanted r ≠ (s.adm.holds[i]).holding then
      (⟨s.holdWanted r, .stopped⟩, some (if s.holdWanted r then .announce s.settings.leaseLife r else .release r))
    else ((s.adm.holds)[i], (s.tx.product)[i])

/-- Judging one hold changes its own place alone. -/
theorem State.judgeHold_spec (s : State) (i j : Fin 4) :
    (((s.judgeHold i).adm.holds)[j], ((s.judgeHold i).tx.product)[j]) =
      if j = i then s.judgedHold i else ((s.adm.holds)[j], (s.tx.product)[j]) := by
  rw [State.judgeHold_holds, State.judgeHold_product, State.judgedHold]
  by_cases e : j = i
  · subst e
    cases s.holdRes j with
    | none => simp
    | some r =>
      dsimp only
      rw [if_pos rfl]
      simp only [true_and]
      split <;> rfl
  · cases s.holdRes i <;> simp [e]

/-- Judging all four holds judges each of them. -/
theorem State.judgeHolds_spec (s : State) :
    (∀ i : Fin 4, ((s.judgeHolds.adm.holds)[i], (s.judgeHolds.tx.product)[i]) = s.judgedHold i)
    ∧ Untouched [.updates, .adm, .tx, .log] s s.judgeHolds
    ∧ s.judgeHolds.link.state = s.link.state := by
  have key : ∀ (l : List (Fin 4)) (u : State), u = l.foldl State.judgeHold s → l.Nodup →
      (∀ i : Fin 4, ((u.adm.holds)[i], (u.tx.product)[i]) =
        if i ∈ l then s.judgedHold i else ((s.adm.holds)[i], (s.tx.product)[i]))
      ∧ Untouched [.updates, .adm, .tx, .log] s u ∧ u.link.state = s.link.state := by
    intro l
    induction l using List.reverseRecOn with
    | nil => intro u hu _; rw [show u = s from hu]; exact ⟨fun i => by simp, .refl _ s, rfl⟩
    | append_singleton l j ih =>
      intro v hv hn
      subst hv
      have hn' := List.nodup_append.1 hn
      obtain ⟨u, hu⟩ : ∃ u, u = l.foldl State.judgeHold s := ⟨_, rfl⟩
      obtain ⟨h1, h2, h3⟩ := ih u hu hn'.1
      have hj : j ∉ l := fun hm => hn'.2.2 j hm j (by simp) rfl
      simp only [List.foldl_append, List.foldl_cons, List.foldl_nil, ← hu]
      have hset : u.settings = s.settings := h2.settings (by simp)
      have hport : u.port.prod = s.port.prod := by
        have h : SamePort s.port u.port := h2.port (by simp)
        unfold SamePort at h
        rw [h]
      refine ⟨fun i => ?_, h2.trans (.judgeHold u j), by simp [h3]⟩
      rw [State.judgeHold_spec]
      by_cases e : i = j
      · subst e
        have hi := h1 i
        rw [if_neg hj, Prod.mk.injEq] at hi
        rw [if_pos rfl, if_pos (by simp), State.judgedHold, State.judgedHold, holdRes_congr hset, onLine_congr h3, hi.1,
          hi.2, hset]
        cases s.holdRes i with
        | none => rfl
        | some r => dsimp only; rw [holdWanted_congr hset hport]
      · rw [if_neg e, h1 i]; simp [e]
  have := key allFour _ rfl (by decide)
  simpa [allFour, List.mem_finRange, State.judgeHolds] using this

end Sys2Proof.Machine
end

