-- ==== Sys2Proof/Laws/Rounds.lean ====
section
/-! SUPPORT. What each shared operation of a round can do: requests and releases to the admission unit, a new attempt, the entry of a step, the end of an attempt, the end of a round, and a suspension (R34, R35, R46, R76, R85, R88, R94). -/

namespace Sys2Proof.Machine

/-- The record unit's composition and queue are as they were. -/
structure SameRecords (a b : Log) : Prop where
  comp : b.comp = a.comp
  queue : b.queue = a.queue
  next : b.nextFragment = a.nextFragment
  dropped : b.dropped = a.dropped
  flags : ∀ f : Sticky, a.isSet f = true → b.isSet f = true

theorem SameRecords.refl (a : Log) : SameRecords a a := ⟨rfl, rfl, rfl, rfl, fun _ h => h⟩
theorem SameRecords.trans {a b c : Log} (h : SameRecords a b) (k : SameRecords b c) : SameRecords a c :=
  ⟨k.comp.trans h.comp, k.queue.trans h.queue, k.next.trans h.next, k.dropped.trans h.dropped,
    fun f x => k.flags f (h.flags f x)⟩
theorem SameRecords.setFlag (a : Log) (f : Sticky) : SameRecords a (a.setFlag f) :=
  ⟨rfl, rfl, rfl, rfl, fun g h => by simp_all [Log.isSet, Log.setFlag]⟩
theorem SameLog.records {a b : Log} (h : SameLog a b) : SameRecords a b := by
  rcases h with rfl | rfl
  · exact .refl _
  · exact .setFlag _ _

section
variable (s : State)
@[simp] theorem State.makeStatus_adm : s.makeStatus.adm = s.adm := rfl
@[simp] theorem State.makeStatus_seq : s.makeStatus.seq = s.seq := rfl
@[simp] theorem State.makeStatus_ver : s.makeStatus.ver = s.ver := rfl
@[simp] theorem State.makeStatus_updates : s.makeStatus.updates = s.updates := rfl
@[simp] theorem State.makeStatus_link : s.makeStatus.link = s.link := rfl
theorem State.makeStatus_records : SameRecords s.log s.makeStatus.log := ⟨rfl, rfl, rfl, rfl, fun _ h => h⟩
@[simp] theorem State.setRound_adm (r) : (s.setRound r).adm = s.adm := by unfold State.setRound; split <;> rfl
@[simp] theorem State.setRound_seq (r) : (s.setRound r).seq = { s.seq with state := r } := by
  unfold State.setRound; split <;> [(rename_i h; rw [← h]); rfl]
@[simp] theorem State.setRound_ver (r) : (s.setRound r).ver = s.ver := by unfold State.setRound; split <;> rfl
@[simp] theorem State.setRound_updates (r) : (s.setRound r).updates = s.updates := by unfold State.setRound; split <;> rfl
@[simp] theorem State.setRound_link (r) : (s.setRound r).link = s.link := by unfold State.setRound; split <;> rfl
theorem State.setRound_records (r) : SameRecords s.log (s.setRound r).log := by
  unfold State.setRound; split <;> [exact .refl _; exact State.makeStatus_records (s.onSeq _)]
theorem SameTx_own_setRound (r) : (s.setRound r).tx.own = s.tx.own ∧ (s.setRound r).tx.product = s.tx.product := by
  unfold State.setRound
  split
  · exact ⟨rfl, rfl⟩
  · constructor <;> simp only [State.makeStatus, State.placeStatus, State.onLog_tx, State.onTx_tx, State.onSeq_tx,
      Selector.replaced, apply_ite Selector.own, apply_ite Selector.product, ite_self]
end

/-! ### Requests to the admission unit -/

/-- A release withdraws the standing request and lets the own step go (R46). -/
structure Released (s t : State) : Prop where
  frame : Untouched [.updates, .adm, .tx, .log] s t
  standing : t.adm.standing = none
  urgency : t.adm.urgency = s.adm.urgency
  aging : t.adm.aging = s.adm.aging
  holds : t.adm.holds = s.adm.holds
  own : s.adm.standing ≠ none → t.adm.own = .none
  ops : s.updates.ops <+: t.updates.ops
  log : SameLog s.log t.log
  product : t.tx.product = s.tx.product ∧ t.tx.status = s.tx.status

theorem State.releaseRequest_spec (s : State) : Released s s.releaseRequest := by
  unfold State.releaseRequest
  cases h : s.adm.standing with
  | none => exact ⟨.refl _ s, h, rfl, rfl, rfl, fun k => absurd h k, List.prefix_rfl, .inl rfl, rfl, rfl⟩
  | some st =>
    dsimp only
    split
    · rename_i h1
      exact ⟨(Untouched.onAdm s _).mono (by simp), rfl, rfl, rfl, rfl, fun _ => h1, List.prefix_rfl, .inl rfl, rfl, rfl⟩
    · generalize hs1 : (s.onAdm fun a => { a with standing := none, framePlaced := false }) = s1
      have p := State.placeOp_step s1 (.ownRemove .cip (resourcesOf st.pairs))
      have q := State.placeOp_prefix s1 (.ownRemove .cip (resourcesOf st.pairs))
      have l := State.placeOp_log s1 (.ownRemove .cip (resourcesOf st.pairs))
      have f : Untouched [.updates, .adm, .tx, .log] s
          ((s1.placeOp (.ownRemove .cip (resourcesOf st.pairs))).onAdm (Admission.enter .none)) := by
        rw [← hs1]
        exact ((Untouched.onAdm s _).mono (by simp)).trans
          (((Untouched.placeOp _ _).mono (by simp)).trans ((Untouched.onAdm _ _).mono (by simp)))
      have e1 : s1.adm.standing = none := by rw [← hs1]; rfl
      have e2 : s1.adm.urgency = s.adm.urgency ∧ s1.adm.aging = s.adm.aging ∧ s1.adm.holds = s.adm.holds := by
        rw [← hs1]; exact ⟨rfl, rfl, rfl⟩
      have e3 : s1.updates = s.updates ∧ s1.log = s.log ∧ s1.tx = s.tx := by rw [← hs1]; exact ⟨rfl, rfl, rfl⟩
      rw [e3.1] at q
      rw [e3.2.1] at l
      have base : Released s ((s1.placeOp (.ownRemove .cip (resourcesOf st.pairs))).onAdm (Admission.enter .none)) :=
        ⟨f, by simpa [Admission.enter] using e1, by simpa [Admission.enter] using p.urgency.trans e2.1,
          by simpa [Admission.enter] using p.aging.trans e2.2.1, by simpa [Admission.enter] using e2.2.2,
          fun _ => rfl, by simpa using q, by simpa using l, by simp [e3.2.2]⟩
      split
      · refine ⟨base.frame.trans ((Untouched.placeOwn _ _).mono (by simp)), base.standing, base.urgency, base.aging,
          base.holds, base.own, base.ops, base.log, ?_⟩
        have h2 := base.product
        simp only [State.placeOwn, State.onTx_tx, Selector.replaced] at h2 ⊢
        split <;> exact h2
      · exact base

/-- An admission request becomes the standing one, under the base urgency (R28, R35). -/
structure Requested (s t : State) (pairs : List Pair) (tag : Nat) : Prop where
  frame : Untouched [.updates, .adm, .tx, .log] s t
  standing : t.adm.standing = some ⟨pairs, tag⟩
  urgency : t.adm.urgency = s.baseUrgency
  aging : t.adm.aging = 0
  holds : t.adm.holds = s.adm.holds
  own : s.adm.own = .none → t.adm.own = .none
  ops : s.updates.ops <+: t.updates.ops
  log : SameLog s.log t.log
  product : t.tx.product = s.tx.product ∧ t.tx.status = s.tx.status

theorem State.receiveRequest_spec (s : State) (pairs : List Pair) (tag : Nat) :
    Requested s (s.receiveRequest pairs tag) pairs tag := by
  unfold State.receiveRequest
  dsimp only
  split
  · rename_i h
    exact ⟨(Untouched.onAdm s _).mono (by simp), rfl, rfl, rfl, rfl, fun _ => h, List.prefix_rfl, .inl rfl, rfl, rfl⟩
  · rename_i h
    have r := State.releaseRequest_spec s
    exact ⟨r.frame.trans ((Untouched.onAdm _ _).mono (by simp)), rfl,
      rfl, rfl, r.holds,
      fun k => absurd k h, r.ops, r.log, r.product⟩

/-- Taking the standing request leaves the round as it is, where the round is not claiming or running (R35, R78). -/
structure Taken1 (s t : State) : Prop where
  frame : Untouched [.updates, .adm, .log] s t
  tx : t.tx = s.tx
  standing : t.adm.standing = s.adm.standing
  urgency : t.adm.urgency = s.adm.urgency
  aging : t.adm.aging = s.adm.aging
  holds : t.adm.holds = s.adm.holds
  own : t.adm.own = if s.adm.standing ≠ none ∧ s.adm.own = .none ∧ s.onLine = true then .waiting else s.adm.own
  ops : s.updates.ops <+: t.updates.ops
  log : SameLog s.log t.log

theorem State.takeRequest_spec (s : State) (h1 : s.seq.state ≠ .claiming) (h2 : s.seq.state ≠ .running) :
    Taken1 s s.takeRequest := by
  unfold State.takeRequest
  cases h : s.adm.standing with
  | none => exact ⟨.refl _ s, rfl, rfl, rfl, rfl, rfl, by simp [h], List.prefix_rfl, .inl rfl⟩
  | some st =>
    dsimp only
    split
    · rename_i hc
      have p := State.placeOp_step s (.ownInsert .cip st.pairs s.ownKey .waiting)
      have q := State.placeOp_prefix s (.ownInsert .cip st.pairs s.ownKey .waiting)
      have l := State.placeOp_log s (.ownInsert .cip st.pairs s.ownKey .waiting)
      have f := Untouched.placeOp s (.ownInsert .cip st.pairs s.ownKey .waiting)
      have hx := State.placeOp_tx s (.ownInsert .cip st.pairs s.ownKey .waiting)
      have hseq := State.placeOp_seq s (.ownInsert .cip st.pairs s.ownKey .waiting)
      generalize s.placeOp (.ownInsert .cip st.pairs s.ownKey .waiting) = u at *
      have hr : (u.onAdm (Admission.enter .waiting)).reportWaiting = u.onAdm (Admission.enter .waiting) := by
        unfold State.reportWaiting
        split
        · simp only [State.onAdm_seq, hseq]
        · rfl
      rw [hr]
      have e := State.requestEval_step (u.onAdm (Admission.enter .waiting)) false
      refine ⟨f.trans (((Untouched.onAdm _ _).mono (by simp)).trans ((Untouched.requestEval _ _).mono (by simp))), ?_, ?_,
        ?_, ?_, ?_, ?_, ?_, ?_⟩
      · simpa using hx
      · exact e.standing.trans p.standing
      · exact e.urgency.trans p.urgency
      · exact e.aging.trans p.aging
      · exact e.holds.trans p.holds
      · rw [if_pos ⟨by simp [h], hc⟩]; exact e.own
      · exact q.trans (State.requestEval_prefix (u.onAdm (Admission.enter .waiting)) false)
      · exact l.trans (State.requestEval_log (u.onAdm (Admission.enter .waiting)) false)
    · rename_i hc
      exact ⟨.refl _ s, rfl, rfl, rfl, rfl, rfl, by simp [hc], List.prefix_rfl, .inl rfl⟩

/-! ### Attempts -/

/-- A new attempt: the sequencer and the verifier are as R76 and R99 say, and nothing else changes. -/
theorem State.openAttempt_spec (s : State) (i : Fin 20) :
    Untouched [.seq, .ver] s (s.openAttempt i)
    ∧ (s.openAttempt i).seq = { s.seq with
        pointer := i, tag := (s.seq.tag + 1) % 256, attemptOpen := true, repeats := (s.stepAt i).repeats
        stepTimer := .stopped, pauseTimer := .stopped, phase := .burst }
    ∧ (s.openAttempt i).ver = s.ver.newAttempt s.settings.sampleMs (s.stepAt i)
    ∧ (s.openAttempt i).curStep = s.stepAt i ∧ (s.openAttempt i).baseUrgency = s.baseUrgency := by
  refine ⟨?_, rfl, rfl, rfl, rfl⟩
  constructor <;> intros <;> first | rfl | simp_all

/-- What an attempt that goes on gives (R76, R77, R81, R35), from a round that is not claiming or running. -/
structure Proceeded (s t : State) : Prop where
  frame : Untouched [.updates, .adm, .seq, .ver, .tx, .log] s t
  claimless : s.curStep.pairs = [] →
    t.seq = { s.seq with phase := .burst, repeats := s.curStep.repeats, stepTimer := .from 0, state := .running }
    ∧ t.ver = s.ver.runningInBurst ∧ t.adm = s.adm ∧ t.updates = s.updates
  claims : s.curStep.pairs ≠ [] →
    t.seq = { s.seq with state := .waiting } ∧ t.ver = s.ver ∧ t.adm.standing = some ⟨s.curStep.pairs, s.seq.tag⟩
    ∧ t.adm.urgency = s.baseUrgency ∧ t.adm.aging = 0
  holds : t.adm.holds = s.adm.holds
  ops : s.updates.ops <+: t.updates.ops
  records : SameRecords s.log t.log
  product : t.tx.product = s.tx.product

theorem State.proceed_spec (s : State) : Proceeded s s.proceed := by
  unfold State.proceed
  cases hp : s.curStep.pairs with
  | nil =>
    refine ⟨?_, fun _ => ?_, fun h => absurd hp h, ?_, ?_, ?_, ?_⟩
    · exact ((Untouched.onSeq s _).mono (by simp)).trans
        (((Untouched.onVer _ _).mono (by simp)).trans ((Untouched.setRound _ _).mono (by simp)))
    · unfold State.enterRunning; simp
    · simp [State.enterRunning]
    · simp [State.enterRunning]
    · exact State.setRound_records ((s.onSeq _).onVer _) _
    · exact (SameTx_own_setRound _ _).2
  | cons p ps =>
    dsimp only
    have r := State.receiveRequest_spec s (p :: ps) s.seq.tag
    generalize s.receiveRequest (p :: ps) s.seq.tag = u at *
    have t := State.takeRequest_spec (u.setRound .waiting) (by simp) (by simp)
    refine ⟨?_, fun h => by simp [hp] at h, fun _ => ⟨?_, ?_, ?_, ?_, ?_⟩, ?_, ?_, ?_, ?_⟩
    · exact (r.frame.mono (by simp)).trans (((Untouched.setRound _ _).mono (by simp)).trans (t.frame.mono (by simp)))
    · rw [t.frame.seq (by simp), State.setRound_seq, r.frame.seq (by simp)]
    · rw [t.frame.ver (by simp), State.setRound_ver, r.frame.ver (by simp)]
    · rw [t.standing, State.setRound_adm, r.standing, hp]
    · rw [t.urgency, State.setRound_adm, r.urgency]
    · rw [t.aging, State.setRound_adm, r.aging]
    · rw [t.holds, State.setRound_adm, r.holds]
    · have := t.ops
      rw [State.setRound_updates] at this
      exact r.ops.trans this
    · exact r.log.records.trans ((State.setRound_records u .waiting).trans t.log.records)
    · rw [t.tx, (SameTx_own_setRound u .waiting).2, r.product.1]

/-- Entering a step begins a new attempt, and goes on or waits for CONFIRM (R76, R90). -/
theorem State.enterStep_spec (s : State) (i : Fin 20) (confirmed : Bool) :
    FreshAttempt s (s.enterStep i confirmed) i (s.stepAt i)
    ∧ Entered (s.enterStep i confirmed) (s.stepAt i) s.baseUrgency confirmed
    ∧ Untouched [.updates, .adm, .seq, .ver, .tx, .log] s (s.enterStep i confirmed)
    ∧ (s.enterStep i confirmed).adm.holds = s.adm.holds
    ∧ s.updates.ops <+: (s.enterStep i confirmed).updates.ops
    ∧ SameRecords s.log (s.enterStep i confirmed).log
    ∧ (s.enterStep i confirmed).tx.product = s.tx.product
    ∧ (s.enterStep i confirmed).seq = { (s.openAttempt i).seq with
        state := (s.enterStep i confirmed).seq.state, stepTimer := (s.enterStep i confirmed).seq.stepTimer }
    ∧ ((s.enterStep i confirmed).ver.returned = s.ver.returned ∧ (s.enterStep i confirmed).ver.recovered = s.ver.recovered
        ∧ (s.enterStep i confirmed).ver.drained = s.ver.drained) := by
  obtain ⟨h1, h2, h3, h4, h5⟩ := State.openAttempt_spec s i
  unfold State.enterStep
  dsimp only
  generalize s.openAttempt i = u at *
  by_cases hc : (u.curStep.hold && !confirmed) = true
  · rw [if_pos hc]
    rw [h4] at hc
    have hc' : (s.stepAt i).hold = true ∧ confirmed = false := by simpa using hc
    refine ⟨?_, ?_, ?_, ?_, ?_, ?_, ?_, ?_, ?_⟩
    · constructor <;> simp [h2, h3, Verifier.newAttempt, requiredCredit, Config.baseWeight]
    · unfold Entered; rw [if_pos hc']
      simp [h2, h3, Verifier.newAttempt]
    · exact (h1.mono (by simp)).trans ((Untouched.setRound _ _).mono (by simp))
    · rw [State.setRound_adm, h1.adm (by simp)]
    · rw [State.setRound_updates, h1.updates (by simp)]
    · have := State.setRound_records u .holdWait
      rwa [h1.log (by simp)] at this
    · have h6 : SameTx s.tx u.tx := h1.tx (by simp)
      rw [(SameTx_own_setRound u .holdWait).2]; unfold SameTx at h6; rw [h6]
    · simp
    · simp [h3, Verifier.newAttempt]
  · rw [if_neg hc]
    rw [h4] at hc
    have hc' : ¬((s.stepAt i).hold = true ∧ confirmed = false) := by simpa using hc
    have p := State.proceed_spec u
    have hlog := p.records
    rw [h1.log (by simp)] at hlog
    have hops := p.ops
    rw [h1.updates (by simp)] at hops
    have h6 : SameTx s.tx u.tx := h1.tx (by simp)
    have hprod : u.proceed.tx.product = s.tx.product := by rw [p.product]; unfold SameTx at h6; rw [h6]
    by_cases hp : (s.stepAt i).pairs = []
    · obtain ⟨k1, k2, k3, k4⟩ := p.claimless (by rw [h4]; exact hp)
      refine ⟨?_, ?_, (h1.mono (by simp)).trans (p.frame.mono (by simp)), ?_, hops, hlog, hprod, ?_, ?_⟩
      · constructor <;> simp [k1, k2, h2, h3, h4, Verifier.newAttempt, Verifier.runningInBurst, requiredCredit, Config.baseWeight]
      · unfold Entered; rw [if_neg hc', if_pos hp]
        simp [k1, k2, h3, Verifier.newAttempt, Verifier.runningInBurst]
      · rw [k3, h1.adm (by simp)]
      · rw [k1, h2, h4]
      · simp [k2, h3, Verifier.newAttempt, Verifier.runningInBurst]
    · obtain ⟨k1, k2, k3, k4, k5⟩ := p.claims (by rw [h4]; exact hp)
      refine ⟨?_, ?_, (h1.mono (by simp)).trans (p.frame.mono (by simp)), ?_, hops, hlog, hprod, ?_, ?_⟩
      · constructor <;> simp [k1, k2, h2, h3, Verifier.newAttempt, requiredCredit, Config.baseWeight]
      · unfold Entered; rw [if_neg hc', if_neg hp]
        simp [k1, k2, k3, k4, k5, h2, h3, h4, h5, Verifier.newAttempt]
      · rw [p.holds, h1.adm (by simp)]
      · rw [k1]
      · simp [k2, h3, Verifier.newAttempt]

end Sys2Proof.Machine
end

