-- ==== Sys2Proof/Laws/Endings.lean ====
section
/-! SUPPORT. What resuming, suspending and closing a round do, and what judging the holds leaves alone. -/

namespace Sys2Proof.Machine

/-- A fresh attempt stands through the end of the command. -/
theorem FreshAttempt.finish {s t : State} {i st} (h : FreshAttempt s t i st) : FreshAttempt s t.finish i st := by
  obtain ⟨a1,a2,a3,a4,a5,a6,a7,a8,a9,a10,a11⟩ := h
  refine ⟨?_, ?_, ?_, ?_, ?_, ?_, ?_, ?_, ?_, ?_, ?_⟩ <;> simp only [State.finish_seq, State.finish_ver] <;> assumption

/-- An entered step stands through the end of the command. -/
theorem Entered.finish {t : State} {st b c} (h : Entered t st b c) : Entered t.finish st b c := by
  unfold Entered at *; simpa using h

/-- A fresh attempt, judged from a state with the same tag and settings. -/
theorem FreshAttempt.congr {s s' t : State} {i st} (h : FreshAttempt s' t i st) (h1 : s'.seq.tag = s.seq.tag)
    (h2 : s'.settings = s.settings) : FreshAttempt s t i st := by
  obtain ⟨a1,a2,a3,a4,a5,a6,a7,a8,a9,a10,a11⟩ := h
  refine ⟨?_, ?_, ?_, ?_, ?_, ?_, ?_, ?_, ?_, ?_, ?_⟩ <;> first | assumption | (rw [← h1]; assumption) |
      (rw [← h2]; assumption)

/-- What R77 leaves for a step that is not, or no longer, held. -/
theorem Proceeded.entered {s t : State} (p : Proceeded s t) (h1 : s.seq.stepTimer = .stopped)
    (h2 : s.ver.mode = .standby) : Entered t s.curStep s.baseUrgency true := by
  unfold Entered
  rw [if_neg (by simp)]
  split
  · rename_i h; obtain ⟨k1,k2,k3,k4⟩ := p.claimless h
    simp [k1, k2, Verifier.runningInBurst]
  · rename_i h; obtain ⟨k1,k2,k3,k4,k5⟩ := p.claims h
    simp [k1, k2, k3, k4, k5, h1, h2]

/-- Resuming a suspended round (R90). -/
theorem State.resumeRound_spec {u : State} (h : u.seq.state = .suspended) (hb : u.link.state ≠ .barred) (c : Bool) :
   Untouched [.updates, .adm, .seq, .ver, .tx, .log] u (u.resumeRound c) ∧
       (u.resumeRound c).seq.suspendTimer = .stopped ∧ FreshAttempt u (u.resumeRound c) u.seq.pointer u.curStep
   ∧ Entered (u.resumeRound c) u.curStep u.baseUrgency c := by
  unfold State.resumeRound
  rw [if_pos ⟨h, hb⟩]
  obtain ⟨e1, e2, e3, e4, e5, e6, e7, e8, e9⟩ := State.enterStep_spec
      (u.onSeq fun q => { q with suspendTimer := .stopped }) u.seq.pointer c
  refine ⟨((Untouched.onSeq u _).mono (by simp)).trans e3, ?_, ?_, e2⟩
  · rw [e8]; rfl
  · exact FreshAttempt.congr e1 rfl rfl

/-- The current step depends on store, slot and pointer alone. -/
theorem State.curStep_congr {s t : State} (h1 : t.store = s.store) (h2 : t.seq.slot = s.seq.slot)
    (h3 : t.seq.pointer = s.seq.pointer) : t.curStep = s.curStep := by
  simp [State.curStep, h1, h2, h3]

/-- A release of the step that claims resources; nothing for one with no claims (R88, R94). -/
theorem State.releaseIfClaims_spec (s : State) : Untouched [.updates, .adm, .tx, .log] s s.releaseIfClaims
    ∧ SameLog s.log s.releaseIfClaims.log ∧ 
   (s.curStep.pairs ≠ [] → s.releaseIfClaims.adm.standing = none ∧
       (s.adm.standing ≠ none → s.releaseIfClaims.adm.own = .none))
       ∧ s.updates.ops <+: s.releaseIfClaims.updates.ops := by
  unfold State.releaseIfClaims
  have r := State.releaseRequest_spec s
  split
  · exact ⟨.refl _ s, .inl rfl, fun h => absurd ‹_› h, List.prefix_rfl⟩
  · exact ⟨r.frame, r.log, fun _ => ⟨r.standing, r.own⟩, r.ops⟩

/-- What the end of a round leaves where the record queue has room (R94, R95, R98, R166, R167). -/
structure Closed (s t : State) (o : RoundOutcome) (x : Composition) : Prop where
  frame : Untouched [.updates, .adm, .seq, .ver, .tx, .log] s t
  seq : t.seq = { s.seq with state := .idle, stepTimer := .stopped, pauseTimer := .stopped, suspendTimer := .stopped }
  ver : t.ver = { s.ver with mode := .off }
  comp : t.log.comp = none
  dropped : t.log.dropped = s.log.dropped
  flags : ∀ f : Sticky, s.log.isSet f = true → t.log.isSet f = true
  queue : t.log.queue = s.log.queue ++ [{ x.record with
              outcome := o, lastCause := s.seq.lastCause, suspendCount := s.seq.suspendCount
              startUptime := s.seq.startUptime, endUptime := s.loader.uptime
              recovered := litres s.ver.recovered, drained := litres s.ver.drained }]
  rel : s.curStep.pairs ≠ [] → t.adm.standing = none ∧ (s.adm.standing ≠ none → t.adm.own = .none)

/-- The end of a round where the record queue has room. -/
theorem State.closeRound_spec (s : State) (o : RoundOutcome) (x : Composition) (h2 : s.log.comp = some x)
   (h3 : s.log.queue.length < 6) (h4 : ∀ j : Fin 4, s.seq.pendingSet[j] = none) : Closed s (s.closeRound o) o x := by
  obtain ⟨r1, r2, r3, r4⟩ := State.releaseIfClaims_spec s
  unfold State.closeRound
  dsimp only
  generalize s.releaseIfClaims = a at *
  have ha := r1.seq (by simp)
  have hav := r1.ver (by simp)
  have hal := r1.loader (by simp)
  have rr := r2.records
  let b := ((a.onSeq fun q => { q with
      stepTimer := .stopped, pauseTimer := .stopped, suspendTimer := .stopped }).onVer
        Verifier.roundEnded).completeRecord o
  have hb : Untouched [.seq,.ver,.log] a b := ((Untouched.onSeq a _).mono (by simp)).trans
      (((Untouched.onVer _ _).mono (by simp)).trans ((Untouched.onLog _ _).mono (by simp)))
  let c := b.setRound .closing
  have hc : Untouched [.seq,.tx,.log] b c := Untouched.setRound b _
  have hcs : c.seq = { s.seq with
      state := .closing, stepTimer := .stopped, pauseTimer := .stopped, suspendTimer := .stopped } := by
    show (b.setRound .closing).seq = _; rw [State.setRound_seq, ← ha]; rfl
  have hcv : c.ver = { s.ver with mode := .off } := by rw [hc.ver (by simp), ← hav]; rfl
  have hcr := State.setRound_records b .closing
  have hca : c.adm = a.adm := by show (b.setRound .closing).adm = _; rw [State.setRound_adm]; rfl
  let r : Record := { x.record with
              outcome := o, lastCause := s.seq.lastCause, suspendCount := s.seq.suspendCount
              startUptime := s.seq.startUptime, endUptime := s.loader.uptime
              recovered := litres s.ver.recovered, drained := litres s.ver.drained }
  have hcomp : c.log.comp = some ⟨r, true⟩ := by
    rw [hcr.comp]
    show a.log.comp.map _ = _
    rw [rr.comp, h2]
    simp [r, ← ha, ← hav, ← hal]
    exact ⟨rfl, rfl⟩
  have hq : c.log.queue = s.log.queue := by rw [hcr.queue, ← rr.queue]; rfl
  have hd : c.log.dropped = s.log.dropped := by rw [hcr.dropped, ← rr.dropped]; rfl
  have hw : c.log.waitingRecord = some r := by unfold Log.waitingRecord; rw [hcomp]; rfl
  have htk : c.takeRecord = c.onLog fun l => l.append r := by
    unfold State.takeRecord; rw [hw]; dsimp only; rw [if_pos (by rw [hq]; exact h3)]
  let d := c.onLog fun l => l.append r
  have hnext : ∀ q : Sequencer, q.pendingSet = s.seq.pendingSet → q.nextPending = none := by
    intro q hq; unfold Sequencer.nextPending; rw [hq]
    have : (fun j : Fin 4 => (s.seq.pendingSet[j]).map fun e => (j, e)) = fun j => none := by funext j; rw [h4 j]; rfl
    rw [this]; rfl
  have hrt : d.recordTaken = d.setRound .idle := by
    unfold State.recordTaken
    rw [if_pos ⟨by show c.seq.state = _; rw [hcs], rfl⟩]
    unfold State.takePending
    rw [if_pos (by simp), hnext _ (by rw [State.setRound_seq]; show c.seq.pendingSet = _; rw [hcs])]
  show Closed s (c.takeRecord.recordTaken) o x
  rw [htk]
  show Closed s d.recordTaken o x
  rw [hrt]
  have hdr := State.setRound_records d .idle
  refine ⟨?_, ?_, ?_, ?_, ?_, ?_, ?_, ?_⟩
  · exact (r1.mono (by simp)).trans ((hb.mono (by simp)).trans ((hc.mono (by simp)).trans (((Untouched.onLog c _).mono
      (by simp)).trans ((Untouched.setRound d _).mono (by simp)))))
  · rw [State.setRound_seq]; show { c.seq with state := .idle } = _; rw [hcs]
  · rw [State.setRound_ver]; exact hcv
  · rw [hdr.comp]; rfl
  · rw [hdr.dropped]; show c.log.dropped = _; exact hd
  · intro f hf; apply hdr.flags; show c.log.isSet f = true; apply hcr.flags; show a.log.isSet f = true; exact rr.flags f hf
  · rw [hdr.queue]; show c.log.queue ++ [r] = _; rw [hq]
  · intro hp; rw [State.setRound_adm]; show c.adm.standing = _ ∧ (_ → c.adm.own = _); rw [hca]; exact r3 hp

/-- The end of an attempt: its result handed to the record, the verifier OFF (R98, R117). -/
theorem State.endAttempt_spec (s : State) (o : AttemptOutcome) : 
   Untouched [.seq,.ver,.log] s (s.endAttempt o) ∧ (s.endAttempt o).seq = { s.seq with attemptOpen := false } ∧
       (s.endAttempt o).ver = (if s.seq.attemptOpen then { s.ver with mode := .off } else s.ver)
   ∧ (s.endAttempt o).log =
       (if s.seq.attemptOpen then
         { s.log with comp := s.log.comp.map fun c =>
             { c with record := c.record.addResult (s.ver.result s.seq.pointer o) } }
        else s.log) := by
  unfold State.endAttempt
  split
  · exact ⟨((Untouched.onVer s _).mono (by simp)).trans (((Untouched.onLog _ _).mono (by simp)).trans
      ((Untouched.onSeq _ _).mono (by simp))), rfl, rfl, rfl⟩
  · rename_i h
    refine ⟨.refl _ s, ?_, rfl, rfl⟩
    have : s.seq.attemptOpen = false := by simpa using h
    rw [← this]

/-- Suspension (R88). -/
theorem State.suspend_spec (s : State) (c : Cause) (h : s.seq.attemptOpen = true) :
   Untouched [.updates, .adm, .seq, .ver, .tx, .log] s (s.suspend c) ∧ Suspended s (s.suspend c) c ∧
       (s.suspend c).ver = { s.ver with mode := .off }
   ∧ (s.suspend c).log.comp = s.log.comp.map fun x =>
       { x with record := x.record.addResult (s.ver.result s.seq.pointer c.outcome) } := by
  obtain ⟨a1,a2,a3,a4⟩ := State.endAttempt_spec s c.outcome
  unfold State.suspend State.enterSuspended State.haltAttempt
  dsimp only
  generalize s.endAttempt c.outcome = w at *
  rw [if_pos h] at a3 a4
  have hb := Untouched.onSeq w fun q => { q with stepTimer := .stopped, pauseTimer := .stopped }
  obtain ⟨r1,r2,r3,r4⟩ := State.releaseIfClaims_spec (w.onSeq fun q => { q with
      stepTimer := .stopped, pauseTimer := .stopped })
  have hcs : (w.onSeq fun q => { q with
      stepTimer := .stopped, pauseTimer := .stopped }).curStep = s.curStep := State.curStep_congr (a1.store (by simp)) (by simp [a2])
      (by simp [a2])
  have hws : (w.onSeq fun q => { q with
      stepTimer := .stopped, pauseTimer := .stopped }).seq = { s.seq with
      attemptOpen := false, stepTimer := .stopped, pauseTimer := .stopped } := by simp [a2]
  have hwv : (w.onSeq fun q => { q with
      stepTimer := .stopped, pauseTimer := .stopped }).ver = { s.ver with mode := .off } := by simp [a3]
  have hwl : (w.onSeq fun q => { q with
      stepTimer := .stopped, pauseTimer := .stopped }).log = { s.log with comp := s.log.comp.map fun c_1 =>
        { c_1 with record := c_1.record.addResult (s.ver.result s.seq.pointer c.outcome) } } := by simp [a4]
  generalize (w.onSeq fun q => { q with stepTimer := .stopped, pauseTimer := .stopped }) = y at *
  generalize y.releaseIfClaims = z at *
  have hzs := r1.seq (by simp)
  have hr := State.setRound_records (z.onSeq fun q =>
      { q with suspendCount := min (q.suspendCount + 1) 255, lastCause := some c, suspendTimer := .from 0 }) .suspended
  refine ⟨?_, ?_, ?_, ?_⟩
  · exact (a1.mono (by simp)).trans ((hb.mono (by simp)).trans ((r1.mono (by simp)).trans (((Untouched.onSeq z _).mono
      (by simp)).trans ((Untouched.setRound _ _).mono (by simp)))))
  · constructor <;> simp only [State.setRound_seq, State.setRound_ver, State.setRound_adm, State.onSeq_seq,
      State.onSeq_ver, State.onSeq_adm, hzs, hws, r1.ver (by simp), hwv] <;> try trivial
    intro hp; rw [← hcs] at hp; exact (r3 hp).1
  · simp only [State.setRound_ver, State.onSeq_ver, r1.ver (by simp), hwv]
  · rw [hr.comp]; show z.log.comp = _; rw [r2.records.comp, hwl]

/-- What judging the holds leaves of the record unit, the queue, and the other slots (R52). -/
theorem State.judgeHolds_log (s : State) : SameLog s.log s.judgeHolds.log ∧ s.updates.ops <+: s.judgeHolds.updates.ops
    ∧ s.judgeHolds.tx.own = s.tx.own ∧ s.judgeHolds.tx.status = s.tx.status ∧
   SameStep {s.adm with holds := s.judgeHolds.adm.holds} s.judgeHolds.adm := by
  refine List.foldlRecOn (motive := fun u : State => SameLog s.log u.log ∧ s.updates.ops <+: u.updates.ops
      ∧ u.tx.own = s.tx.own ∧ u.tx.status = s.tx.status
      ∧ SameStep {s.adm with holds := u.adm.holds} u.adm) allFour State.judgeHold ⟨.inl rfl, List.prefix_rfl, rfl,
      rfl, by constructor <;> rfl⟩ ?_
  intro u ⟨h1, h2, h3, h4, h5⟩ i _
  unfold State.judgeHold State.beginHold State.endHold State.placeHold
  have tx : ∀ (w : State) c, (w.placeProduct i c).tx.own = w.tx.own ∧ (w.placeProduct i c).tx.status = w.tx.status := by
    intro w c; simp only [State.placeProduct, State.onTx_tx, Selector.replaced, apply_ite Selector.own,
        apply_ite Selector.status, ite_self]; exact ⟨trivial, trivial⟩
  split <;> [exact ⟨h1,h2,h3,h4,h5⟩; skip]
  split <;> [skip; exact ⟨h1,h2,h3,h4,h5⟩]
  split <;> [skip; (split <;> [skip; exact ⟨h1,h2,h3,h4,h5⟩])]
  all_goals
    refine ⟨h1.trans (State.placeOp_log _ _), h2.trans (State.placeOp_prefix _ _), ?_, ?_, ?_⟩
    · rw [(tx _ _).1]; simpa using h3
    · rw [(tx _ _).2]; simpa using h4
    · have op := State.placeOp_step u
      constructor <;> simp [State.placeProduct, (op _).urgency, (op _).aging, (op _).stay, (op _).last, (op _).settle,
          (op _).lapse, (op _).refresh, (op _).guard,
        h5.own, h5.standing, h5.urgency, h5.aging, h5.state, h5.learning, h5.stay, h5.last, h5.settle, h5.lapse,
            h5.refresh, h5.guard]

end Sys2Proof.Machine
end

