-- ==== Sys2Proof/Laws/Frames.lean ====
section
/-! SUPPORT. What a frame heard does before it is handed on (R138, R139, R142). -/

namespace Sys2Proof.Machine

/-- The condition at the answer is hold-off exactly where the claims say that it was. -/
theorem State.holdOffAtAnswer_iff (s : State) (f : RxFrame) : s.holdOffAtAnswer f.early = true ↔ s.HeldOffAt f := by
  unfold State.holdOffAtAnswer State.HeldOffAt
  cases f.early <;> cases s.link.holdOffMoved <;> cases s.updates.holdOff <;> decide

/-- A node that hears a frame is ENGAGED or RETICENT. -/
theorem State.Hears.onLine {s : State} {kind : Nat} {f : RxFrame} (h : s.Hears kind f) : s.onLine = true := by
  rcases h.state with h | h <;> simp [State.onLine, h.1]

/-- A frame heard is answered ACCEPT, lowers REC, and is handed on; the link state stands. -/
theorem State.receive_heard {s : State} {kind : Nat} {f : RxFrame} (h : s.Hears kind f) :
    s.receiveFrame kind f = (s.onLink Link.heard).handOn kind f := by
  have hon : s.onLine = true := h.onLine
  have ha : s.answerTo kind f = some .accept := by
    have : s.holdOffAtAnswer f.early = false := by
      rw [← Bool.not_eq_true, State.holdOffAtAnswer_iff]
      exact h.accepts
    simp [State.answerTo, hon, this]
  have hd : deliveredBy (slotsSeen f.others (some .accept)) = true := by
    simp [deliveredBy, slotsSeen, h.slots.1, h.slots.2]
  have hs : ((s.frameOver (some .accept)).recDown) = s.onLink Link.heard := by
    unfold State.recDown State.moveCounts
    split
    · rename_i h0
      have h1 : s.link.recCount - 1 = s.link.recCount := h0.2
      simp only [State.frameOver, State.onLink, Link.heard]
      rw [h1]
    · rename_i moved
      have h1 : ((s.frameOver (some .accept)).onLink fun l =>
          { l with
            tec := (s.frameOver (some .accept)).link.tec, recCount := (s.frameOver (some .accept)).link.recCount - 1 })
          = s.onLink Link.heard := rfl
      rw [h1]
      unfold State.judgeLink
      have e1 : (s.onLink Link.heard).link.tec = s.link.tec := rfl
      have e2 : (s.onLink Link.heard).link.recCount = s.link.recCount - 1 := rfl
      have e3 : (s.onLink Link.heard).link.state = s.link.state := rfl
      have lowered : s.link.recCount ≠ 0 := fun h0 => moved ⟨rfl, by simp [State.frameOver, State.onLink, h0]⟩
      rw [e1, e2, e3]
      rcases h.state with ⟨st, hc⟩ | ⟨st, hc⟩
      · rw [if_neg (by omega), if_neg (by omega), if_neg (by rw [st]; simp)]
      · rw [if_neg (by omega), if_neg (by rw [st]; simp), if_neg (by omega)]
  have hon' : (s.onLink Link.heard).onLine = true := h.onLine
  unfold State.receiveFrame
  rw [if_pos ⟨by simp [State.isRunning, h.running], h.role⟩, if_pos h.check]
  dsimp only
  rw [ha, if_pos hd]
  unfold State.deliveredFrame
  rw [if_neg (by simpa [State.frameOver] using h.sender), if_pos (show (s.frameOver (some .accept)).onLine = true from hon)]
  dsimp only
  rw [hs, if_pos hon']

/-- The addressed command of a COMMAND heard. -/
theorem readCommand_reaches {s : State} {f : CommandFrame} {code : Byte} (h : s.Reaches f code) :
    readCommand s.settings.node s.settings.groups (commandRx f code) =
      match code.toNat with
      | 0 => some (.request f.slot.toNat f.endIndex.toNat)
      | 1 => some .abort
      | 2 => some .resume
      | 3 => some .report
      | _ => none := by
  unfold readCommand
  have h1 : commandAddressed s.settings.node s.settings.groups (commandRx f code) = true := by
    simp [commandAddressed, commandRx, byteAt, h.2]
  have h2 : 4 ≤ (commandRx f code).payload.length := by simp [commandRx]
  dsimp only
  rw [if_pos ⟨h2, h1⟩]
  rfl

/-- A COMMAND that reaches its block acts on the state in which the link has heard it. -/
theorem State.receive_reaches {s : State} {f : CommandFrame} {code : Byte} {a : Asked} (h : s.Reaches f code)
    (ha : readCommand s.settings.node s.settings.groups (commandRx f code) = some a) :
    s.receiveFrame 4 (commandRx f code) = (s.onLink Link.heard).command a := by
  rw [State.receive_heard h.1]
  unfold State.handOn
  simp only [State.onLink_settings, ha]

/-- After a frame heard the medium is busy, so nothing is offered. -/
theorem heard_busy {s : State} {kind : Nat} {f : RxFrame} (h : s.Hears kind f) : (s.onLink Link.heard).link.medium = .busy :=
  h.medium

end Sys2Proof.Machine
end

