-- ==== Sys2Proof/WellFormed.lean ====
section
/-! DEFINITION. Which commands the formats admit: the lengths of the byte strings a command carries. -/

namespace Sys2Proof

/-- The length field of a frame holds 0 to 12 (R133). -/
def RxFrame.lengthOk (f : RxFrame) : Bool := decide (f.payload.length ≤ 12)

/-- A COMMAND carries its four bytes, and at most 12 in all (R133, R186). -/
def CommandFrame.lengthOk (f : CommandFrame) : Bool := decide (f.extra.length ≤ 8)

/-- The reply is 12 bytes (R189). -/
def replyLengthOk (bytes : List Byte) : Bool := bytes.length == 12

/-- The part reads an image of 2639 bytes (R176, R190). -/
def imageLengthOk (bytes : List Byte) : Bool := bytes.length == 2639

/-- A command whose operands have a shape that the formats admit. -/
def Instr.wellFormed : Instr → Bool
  | .powerUp => true
  | .resetRisingEdge => true
  | .resetFallingEdge => true
  | .imageReadEnd b => imageLengthOk b
  | .startUpComplete => true
  | .uptimeTick => true
  | .inputLevelChange _ _ => true
  | .reqRisingEdge _ => true
  | .confirmRisingEdge => true
  | .stopChange => true
  | .prodLineChange _ => true
  | .samplePeriodExpiry => true
  | .sampleReply b => replyLengthOk b
  | .replyTimeout => true
  | .applyAnnouncementCip => true
  | .applyAnnouncementProduct => true
  | .applyRelease => true
  | .inhibitOperation => true
  | .clearOperation => true
  | .ownInsert => true
  | .ownUpdate => true
  | .ownRemove => true
  | .evaluate => true
  | .entryExpiry _ => true
  | .incompleteTimerExpiry _ => true
  | .agingExpiry => true
  | .learningExpiry => true
  | .settleExpiry => true
  | .lapseExpiry => true
  | .refreshExpiry => true
  | .guardExpiry => true
  | .productRefreshExpiry _ => true
  | .stepTimerExpiry => true
  | .pauseTimerExpiry => true
  | .suspendTimerExpiry => true
  | .announce f => f.lengthOk
  | .release f => f.lengthOk
  | .inhibit f => f.lengthOk
  | .clear f => f.lengthOk
  | .request f => f.lengthOk
  | .abort f => f.lengthOk
  | .resume f => f.lengthOk
  | .report f => f.lengthOk
  | .status f => f.lengthOk
  | .record f => f.lengthOk
  | .unknownKind _ f => f.lengthOk
  | .receivedFrameCheckFailed => true
  | .frameBreakOff => true
  | .arbitrationLost => true
  | .frameAbandon => true
  | .ownFrameEnd _ => true
  | .mediumIdle => true
  | .holdBackExpiry => true
  | .rejoin => true
  | .statusPeriodExpiry => true
  | .commandNotAddressed f => f.lengthOk
  | .peerStartField => true

end Sys2Proof
end

