-- ==== Sys2Proof/Laws/PerInstr.lean ====
section
/-! SUPPORT. A law made for each command by itself: a well-formed frame command carries a payload that the length
field can hold. -/

namespace Sys2Proof.Laws.FramePayloadFits

/-- The payload that a frame command carries; none for a command that is no frame of another station (R133, R186). -/
def payloadOf : Instr → Option (List Byte)
  | .powerUp => none
  | .resetRisingEdge => none
  | .resetFallingEdge => none
  | .imageReadEnd _ => none
  | .startUpComplete => none
  | .uptimeTick => none
  | .inputLevelChange _ _ => none
  | .reqRisingEdge _ => none
  | .confirmRisingEdge => none
  | .stopChange => none
  | .prodLineChange _ => none
  | .samplePeriodExpiry => none
  | .sampleReply _ => none
  | .replyTimeout => none
  | .applyAnnouncementCip => none
  | .applyAnnouncementProduct => none
  | .applyRelease => none
  | .inhibitOperation => none
  | .clearOperation => none
  | .ownInsert => none
  | .ownUpdate => none
  | .ownRemove => none
  | .evaluate => none
  | .entryExpiry _ => none
  | .incompleteTimerExpiry _ => none
  | .agingExpiry => none
  | .learningExpiry => none
  | .settleExpiry => none
  | .lapseExpiry => none
  | .refreshExpiry => none
  | .guardExpiry => none
  | .productRefreshExpiry _ => none
  | .stepTimerExpiry => none
  | .pauseTimerExpiry => none
  | .suspendTimerExpiry => none
  | .announce f => some f.payload
  | .release f => some f.payload
  | .inhibit f => some f.payload
  | .clear f => some f.payload
  | .request f => some (Machine.commandRx f 0).payload
  | .abort f => some (Machine.commandRx f 1).payload
  | .resume f => some (Machine.commandRx f 2).payload
  | .report f => some (Machine.commandRx f 3).payload
  | .status f => some f.payload
  | .record f => some f.payload
  | .unknownKind _ f => some f.payload
  | .receivedFrameCheckFailed => none
  | .frameBreakOff => none
  | .arbitrationLost => none
  | .frameAbandon => none
  | .ownFrameEnd _ => none
  | .mediumIdle => none
  | .holdBackExpiry => none
  | .rejoin => none
  | .statusPeriodExpiry => none
  | .commandNotAddressed f => some f.payload
  | .peerStartField => none

/-- Where the command is well formed, the payload it carries is at most 12 bytes (R133). -/
def Statement (i : Instr) : Prop := i.wellFormed = true → ∀ p, payloadOf i = some p → p.length ≤ 12

theorem of_frame {i : Instr} {f : RxFrame} (hp : payloadOf i = some f.payload) (hw : i.wellFormed = f.lengthOk) :
    Statement i := by
  intro h p e
  rw [hp] at e
  rw [hw] at h
  cases e
  simpa [RxFrame.lengthOk] using h

theorem of_command {i : Instr} {f : CommandFrame} {code : Byte} (hp : payloadOf i = some (Machine.commandRx f code).payload)
    (hw : i.wellFormed = f.lengthOk) : Statement i := by
  intro h p e
  rw [hp] at e
  rw [hw] at h
  cases e
  simp only [CommandFrame.lengthOk, decide_eq_true_eq] at h
  simp only [Machine.commandRx, List.cons_append, List.nil_append, List.length_cons]
  omega

theorem of_none {i : Instr} (hp : payloadOf i = none) : Statement i := by
  intro _ p e
  rw [hp] at e
  cases e

theorem powerUp : Statement .powerUp := of_none rfl
theorem resetRisingEdge : Statement .resetRisingEdge := of_none rfl
theorem resetFallingEdge : Statement .resetFallingEdge := of_none rfl
theorem imageReadEnd : ∀ a, Statement (.imageReadEnd a) := fun _ => of_none rfl
theorem startUpComplete : Statement .startUpComplete := of_none rfl
theorem uptimeTick : Statement .uptimeTick := of_none rfl
theorem inputLevelChange : ∀ a b, Statement (.inputLevelChange a b) := fun _ _ => of_none rfl
theorem reqRisingEdge : ∀ a, Statement (.reqRisingEdge a) := fun _ => of_none rfl
theorem confirmRisingEdge : Statement .confirmRisingEdge := of_none rfl
theorem stopChange : Statement .stopChange := of_none rfl
theorem prodLineChange : ∀ a, Statement (.prodLineChange a) := fun _ => of_none rfl
theorem samplePeriodExpiry : Statement .samplePeriodExpiry := of_none rfl
theorem sampleReply : ∀ a, Statement (.sampleReply a) := fun _ => of_none rfl
theorem replyTimeout : Statement .replyTimeout := of_none rfl
theorem applyAnnouncementCip : Statement .applyAnnouncementCip := of_none rfl
theorem applyAnnouncementProduct : Statement .applyAnnouncementProduct := of_none rfl
theorem applyRelease : Statement .applyRelease := of_none rfl
theorem inhibitOperation : Statement .inhibitOperation := of_none rfl
theorem clearOperation : Statement .clearOperation := of_none rfl
theorem ownInsert : Statement .ownInsert := of_none rfl
theorem ownUpdate : Statement .ownUpdate := of_none rfl
theorem ownRemove : Statement .ownRemove := of_none rfl
theorem evaluate : Statement .evaluate := of_none rfl
theorem entryExpiry : ∀ a, Statement (.entryExpiry a) := fun _ => of_none rfl
theorem incompleteTimerExpiry : ∀ a, Statement (.incompleteTimerExpiry a) := fun _ => of_none rfl
theorem agingExpiry : Statement .agingExpiry := of_none rfl
theorem learningExpiry : Statement .learningExpiry := of_none rfl
theorem settleExpiry : Statement .settleExpiry := of_none rfl
theorem lapseExpiry : Statement .lapseExpiry := of_none rfl
theorem refreshExpiry : Statement .refreshExpiry := of_none rfl
theorem guardExpiry : Statement .guardExpiry := of_none rfl
theorem productRefreshExpiry : ∀ a, Statement (.productRefreshExpiry a) := fun _ => of_none rfl
theorem stepTimerExpiry : Statement .stepTimerExpiry := of_none rfl
theorem pauseTimerExpiry : Statement .pauseTimerExpiry := of_none rfl
theorem suspendTimerExpiry : Statement .suspendTimerExpiry := of_none rfl
theorem announce : ∀ a, Statement (.announce a) := fun _ => of_frame rfl rfl
theorem release : ∀ a, Statement (.release a) := fun _ => of_frame rfl rfl
theorem inhibit : ∀ a, Statement (.inhibit a) := fun _ => of_frame rfl rfl
theorem clear : ∀ a, Statement (.clear a) := fun _ => of_frame rfl rfl
theorem request : ∀ a, Statement (.request a) := fun _ => of_command rfl rfl
theorem abort : ∀ a, Statement (.abort a) := fun _ => of_command rfl rfl
theorem resume : ∀ a, Statement (.resume a) := fun _ => of_command rfl rfl
theorem report : ∀ a, Statement (.report a) := fun _ => of_command rfl rfl
theorem status : ∀ a, Statement (.status a) := fun _ => of_frame rfl rfl
theorem record : ∀ a, Statement (.record a) := fun _ => of_frame rfl rfl
theorem unknownKind : ∀ a b, Statement (.unknownKind a b) := fun _ _ => of_frame rfl rfl
theorem receivedFrameCheckFailed : Statement .receivedFrameCheckFailed := of_none rfl
theorem frameBreakOff : Statement .frameBreakOff := of_none rfl
theorem arbitrationLost : Statement .arbitrationLost := of_none rfl
theorem frameAbandon : Statement .frameAbandon := of_none rfl
theorem ownFrameEnd : ∀ a, Statement (.ownFrameEnd a) := fun _ => of_none rfl
theorem mediumIdle : Statement .mediumIdle := of_none rfl
theorem holdBackExpiry : Statement .holdBackExpiry := of_none rfl
theorem rejoin : Statement .rejoin := of_none rfl
theorem statusPeriodExpiry : Statement .statusPeriodExpiry := of_none rfl
theorem commandNotAddressed : ∀ a, Statement (.commandNotAddressed a) := fun _ => of_frame rfl rfl
theorem peerStartField : Statement .peerStartField := of_none rfl

end Sys2Proof.Laws.FramePayloadFits
end

