-- ==== Sys2Proof/Tests/Slice0.lean ====
section
/-! SUPPORT. Tests: what the formats refuse, worked examples of the manual, single steps on small states, and for each
statement with hypotheses a state that meets them. Expected values come from the manual's worked cases and tables. -/

namespace Sys2Proof.Tests

open Sys2Proof.Machine

/- One theorem after the other: each kernel evaluation would else wait on a thread of its own. -/
set_option Elab.async false

/-! ### A small node -/

/-- Node 5: every resource of capacity 100 but 15, which is absent; line PROD1 stands for resource 3. -/
def cfg : Settings :=
  { Settings.empty with
    node := 5, groups := 1, refresh := 2, settle := 4, aging := 60, sampleCode := 1, sensorLimit := 3
    suspendLimit := 30, statusPeriod := 10, wCCode := 1, capacity := (Vector.replicate 16 100).set 15 0
    prodMap := (Vector.replicate 4 none).set 0 (some 3), rest := 0x800 }

/-- A step that claims 50 of resource 2, in two bursts. -/
def wash : Sys2Proof.Machine.Step :=
  { Step.empty with
    claimCount := 1, claims := [⟨2, 50⟩], active := 1, pause := 2, contact := 60, limit := 400, repeats := 2
    pauseTime := 3 }

/-- A chained step that claims 40 of resource 2. -/
def rinse : Sys2Proof.Machine.Step :=
  { Step.empty with
    claimCount := 1, claims := [⟨2, 40⟩], active := 4, contact := 60, limit := 400, repeats := 1, chain := true }

/-- A step that waits for CONFIRM and claims nothing. -/
def check : Sys2Proof.Machine.Step :=
  { Step.empty with contact := 60, limit := 400, repeats := 1, hold := true }

/-- A step that claims nothing, in one burst. -/
def drip : Sys2Proof.Machine.Step := { Step.empty with contact := 60, limit := 400, repeats := 1 }

/-- A TIMED step that claims nothing, in one burst, and recovers. -/
def metered : Sys2Proof.Machine.Step := { drip with timed := true, routing := .recover }

/-- A usable recipe of given steps. -/
def recipe (steps : Vector Sys2Proof.Machine.Step 20) (final : Fin 20) : Recipe :=
  ⟨final.val + 1, 20, steps, true, final⟩

/-- Slot 0 washes, rinses and drips, slot 1 begins with a held step, slot 2 drips and meters, slot 3 is unusable. -/
def recipes : Store :=
  { Store.empty with
    slots := (((Store.empty.slots.set 0
      (recipe (((Vector.replicate 20 Step.empty).set 0 wash).set 1 rinse |>.set 2 drip) 2)).set 1
      (recipe ((Vector.replicate 20 Step.empty).set 0 check) 0)).set 2
      (recipe ((Vector.replicate 20 Step.empty).set 0 drip |>.set 1 metered) 1)) }

/-- The node RUNNING, ACTIVE and ENGAGED on an idle medium, with no round. -/
def node : State :=
  { State.reset with
    loader := ⟨.running, .good, [], 0, 0⟩, settings := cfg, store := recipes
    adm := { Admission.start with state := .active }, link := { Link.start with medium := .idle }
    port := { Port.start with samplePeriod := .from 500, reset := .quiet }
    log := { Log.start with period := .from 10000 } }

/-- The own entry on resource 2, under urgency 20: key 64 × 43 + 5. -/
def ownEntry (st : EntryState) : Entry := ⟨0, 5, .cip, some 50, 2757, st, none, true⟩

/-- A waiting entry of node 9 on resource 2: key 64 × 20 + 9. -/
def peerEntry : Entry := ⟨1, 9, .cip, some 30, 1289, .waiting, some ⟨40, 0⟩, false⟩

/-- A board with given entries on resource 2, and the given numbers free. -/
def board (l : List Entry) (free : List (Fin 64)) : Board :=
  { Board.start with lists := (Vector.replicate 16 []).set 2 l, free := free }

/-- A record just begun. -/
def begun : Record :=
  { roundNumber := 1, slot := 0, endIndex := 255, outcome := .complete, lastCause := none, suspendCount := 0
    truncated := false, startUptime := 0, endUptime := 0, recovered := 0, drained := 0, results := [] }

/-- The node with a round at a step, in a given round state, a running step at its time limit. -/
def round (st : RoundState) (slot : Fin 4) (pointer : Fin 20) : State :=
  { node with
    seq := { Sequencer.start with
      state := st, slot := slot, pointer := pointer, tag := 1, attemptOpen := st.attempting, roundNumber := 1
      stepTimer := if st = .running then .from 400000 else .stopped
      suspendTimer := if st = .suspended then .from 0 else .stopped }
    ver := { Verifier.start with
      mode := if st = .running then .burst else if st.attempting then .standby else .off, required := 1920 }
    log := { node.log with comp := if st = .idle then none else some ⟨begun, st = .closing⟩ } }

/-- The own step in a given state under the round's standing request, its entry on the board, a peer's before it; the guard of a run
at its limit. -/
def claimed (own : OwnState) (entry : EntryState) (st : RoundState) : State :=
  { round st 0 0 with
    board := board [peerEntry, ownEntry entry] (Board.allFree.drop 2)
    adm := { node.adm with
      own := own, standing := some ⟨[⟨2, 50⟩], 1⟩, urgency := 20
      settle := if own = .claiming then .from 0 else .stopped
      lapse := if own = .claiming ∨ own = .runPending then .from 0 else .stopped
      refresh := if own = .waiting ∨ own = .running then .from 0 else .stopped
      guard := if own = .running then .from cfg.guardMs else .stopped } }

/-- A node that is receiving the frame on the medium. -/
def receiving (s : State) : State := { s with link := { s.link with role := .receiver, medium := .busy } }

/-- A node whose copy from a slot is on the medium. -/
def sending (slot : SlotId) (s : State) : State :=
  { s with
    link := { s.link with role := .sender, medium := .busy, copy := some ⟨0, 0, [], 0⟩ }
    tx := { s.tx with copyFrom := some slot } }

/-- A frame of another station, with its check field right and no other station answering. -/
def rx (kind : Nat) (low : BitVec 12) (payload : List Byte) : RxFrame :=
  ⟨low, payload, frameCheck (arbWord kind low.toNat) payload, ⟨false, false, false⟩, false⟩

/-- A COMMAND of node 60 to a target. -/
def cmd (target code slot endIndex : Byte) : CommandFrame :=
  ⟨60, target, slot, endIndex, [], frameCheck (arbWord 4 60) [target, code, slot, endIndex], ⟨false, false, false⟩, false⟩

/-- A frame so made passes the receiver's check (R137). -/
theorem rx_good (kind : Nat) (low : BitVec 12) (payload : List Byte) (h : payload.length ≤ 12) :
    checkGood kind (rx kind low payload) = true := by
  simp [checkGood, rx, h]

/-- The outcome's state, for tests that look into it. -/
def after (o : Host.Outcome State Fault Refusal) : State :=
  match o with
  | .next t => t
  | .fault _ => State.reset
  | .refused _ => State.reset

/-! ### What the formats refuse -/

theorem test_frame_of_13_bytes_is_refused :
    (Instr.announce ⟨0, List.replicate 13 0, 0, ⟨false, false, false⟩, false⟩).wellFormed = false := by decide
theorem test_command_of_13_bytes_is_refused :
    (Instr.abort { cmd 5 1 0 0 with extra := List.replicate 9 0 }).wellFormed = false := by decide
theorem test_reply_of_11_bytes_is_refused : (Instr.sampleReply (List.replicate 11 0)).wellFormed = false := by decide
theorem test_image_of_2638_bytes_is_refused : (Instr.imageReadEnd (List.replicate 2638 0)).wellFormed = false := by
  decide +kernel
theorem test_frame_of_12_bytes_is_admitted : (rx 5 9 (List.replicate 12 0)).lengthOk = true := by decide

/-! ### Worked values -/

/-- The check computation over the digits 1 to 9. PRESUMED: the value commonly published for this polynomial and preset. -/
theorem test_check_value_of_digits : checkBytes [0x31, 0x32, 0x33, 0x34, 0x35, 0x36, 0x37, 0x38, 0x39] = 0x29B1 := by
  decide +kernel
/-- Section 5.11: D, κ25 and conc. -/
theorem test_caustic_sample :
    compensationDivisor 19 752 = 19538 ∧ kappa25Of 19 752 9750 = 4990 ∧ concOf 20 4990 = 100 := by decide
/-- Section 5.12: the concentrations of samples 3, 5, 6 and 9. -/
theorem test_samples_with_lapses :
    kappa25Of 19 800 10205 = 4990 ∧ kappa25Of 19 760 9825 = 4990 ∧ kappa25Of 19 690 9160 = 4989
      ∧ kappa25Of 19 752 15630 = 8000 ∧ concOf 20 8000 = 160 := by decide

/-- The step of sections 5.11 and 5.12. -/
def caustic : Sys2Proof.Machine.Step :=
  { Step.empty with tmin := 700, span := 100, cmin := 80, cmax := 150, fmin := 150, contact := 5, grace := 2,
                    convSet := .set 0, routing := .divert }
/-- Its conversion set. -/
def causticSet : ConvSet := ⟨19, 20, 80, 40, true⟩
/-- An attempt of it in BURST, with given credit and dropout. -/
def inBurst (credit dropout : Nat) : Verifier :=
  { Verifier.start with mode := .burst, required := 160, credit := credit, dropout := dropout }
/-- A sample with every channel present. -/
def full (tr fs kappa : Nat) : Sample := ⟨some tr, some fs, some 180, some kappa⟩

/-- Section 5.11: weights, and the required credit of 600 s at 500 ms. -/
theorem test_caustic_weights :
    weight caustic 752 = 24 ∧ weight caustic 760 = 25 ∧ weight caustic 800 = 32 ∧ weight caustic 700 = 16
      ∧ requiredCredit 500 { caustic with contact := 600 } = 19200 := by decide
/-- Sample 1 of section 5.12. -/
theorem test_first_sample_credits :
    let e := (inBurst 0 0).takeSample 500 3 caustic (some causticSet) (full 752 182 9750)
    e.ver.credit = 24 ∧ e.ver.dropout = 0 ∧ e.ver.divert = .recover ∧ e.ver.recovered = 90000 ∧ e.report = .nothing := by
  decide
/-- Sample 4 of section 5.12: κ absent. -/
theorem test_absent_channel_counts :
    let e := ({ inBurst 48 1 with divert := .recover }).takeSample 500 3 caustic (some causticSet)
      ⟨some 752, some 182, some 180, none⟩
    e.ver.credit = 48 ∧ e.ver.dropout = 2 ∧ e.ver.sensorLoss = 1 ∧ e.ver.divert = .recover ∧ e.sensorAbsent = true := by
  decide
/-- Sample 8 of section 5.12: the credit is thrown away. -/
theorem test_grace_runs_out :
    let e := (inBurst 80 2).takeSample 500 3 caustic (some causticSet) (full 752 140 9750)
    e.ver.credit = 0 ∧ e.ver.dropout = 0 ∧ e.ver.restarts = 1 := by decide
/-- Sample 14 of section 5.12: 7 of 32 complete the burst. -/
theorem test_last_sample_completes :
    let e := (inBurst 153 0).takeSample 500 3 caustic (some causticSet) (full 800 182 10205)
    e.ver.credit = 160 ∧ e.report = .burstComplete ∧ e.ver.mode = .burstDone := by decide


/-! ### States that meet the hypotheses of the statements over every step -/

/-- A round that runs its claimed step. -/
def running : State := claimed .running .running .running

/-- A state with one command waiting. -/
def ask (c : Instr) (s : State) : State := { s with pending := [c] }

theorem witness_StepRunsFrontCommand : (ask .uptimeTick node).pending = .uptimeTick :: [] := rfl
/-- The peer's entry on resource 2 has no life left. -/
def withDue (s : State) : State := { s with board := board [{ peerEntry with life := some ⟨0, 0⟩ }] (0 :: Board.allFree.drop 2) }
/-- An entry due before a waiting operation, an operation with no entry due, and nothing due. -/
theorem witness_IdleStepTakesWhatIsDue :
    node.pending = [] ∧ node.dueCommand = none ∧ node.loader.phase = .running ∧ node.port.reset.timer.on = false
      ∧ ({ node with log := { node.log with period := .from 0 } } : State).dueCommand = some .statusPeriodExpiry
      ∧ (let s : State := { withDue node with updates := ⟨[.inhibit 4], false⟩ }
         s.pending = [] ∧ s.port.reset.timer.on = false ∧ s.dueCommand = some (.entryExpiry 1)
          ∧ ∃ e ∈ s.board.lists[(2 : Res)], e.life.map (·.units) = some 0)
      ∧ (let s : State := { running with updates := ⟨[.inhibit 4], false⟩ }
         s.dueCommand = some .inhibitOperation ∧ ∀ r : Res, ∀ e ∈ s.board.lists[r], e.life.map (·.units) ≠ some 0) := by
  decide +kernel

/-- One step of a running round, and one of the node held in reset. -/
theorem witness_OutputLinesFollow :
    (∃ t, step (ask .uptimeTick running) = .next t ∧ t.loader.phase = .running) ∧
    (∃ t, step (ask .powerUp running) = .next t ∧ t.loader.phase ≠ .running) :=
  ⟨⟨after (step (ask .uptimeTick running)), rfl, by decide +kernel⟩,
    ⟨after (step (ask .powerUp running)), rfl, by decide +kernel⟩⟩
theorem witness_IndicatorsFollow : ∃ t, step (ask .uptimeTick running) = .next t := ⟨_, rfl⟩

theorem witness_InertUntilRunningKept :
    running.InertUntilRunning ∧ ({ State.reset with loader := ⟨.reading, .none, [], 0, 0⟩ } : State).Inert :=
  ⟨fun h => absurd rfl h, by constructor <;> decide +kernel⟩
theorem witness_EntryPoolAccountedKept : running.board.Accounted := by constructor <;> decide +kernel

theorem witness_LaneBoardRankedKept : running.Ranked where
  ascending := by unfold Entry.Before; decide +kernel
  entries := by
    have known : ∀ r : Res, ∀ e ∈ running.board.lists[r], e = peerEntry ∨ e = ownEntry .running := by decide +kernel
    intro r e h
    rcases known r e h with rfl | rfl <;> constructor <;> decide +kernel
  absent := by decide +kernel
  queued := by intro op h; cases h
  waiting := by intro op h; cases h
  node := by decide +kernel
  image := by decide +kernel
  urgency := by decide +kernel
  bases := by decide +kernel

/-- Twelve operations from the hall in hold-off, beside two own ones: the bounds reached. -/
def crowdedQueue : State :=
  { running with
    updates := ⟨List.replicate 12 (.inhibit 1) ++ [.evaluate, .ownRemove .cip [2]], true⟩
    adm := { running.adm with outstanding := 2, waiting := [.ownRemove .product [3]] } }
theorem witness_UpdateQueueBoundedKept : crowdedQueue.QueueBounded where
  hall := by decide +kernel
  own := by decide +kernel
  outstanding := by decide +kernel
  waiting := by decide +kernel
  waitingOwn := by decide +kernel
  holdOff := by unfold Updates.HoldOffFits; decide +kernel
  answered := by decide +kernel

theorem witness_ClaimedStepRunsUnderGrant : running.Granted ∧ running.curStep.pairs ≠ [] :=
  ⟨⟨fun _ _ => ⟨rfl, ⟨_, rfl, rfl⟩⟩, fun h => absurd h (by decide +kernel), by decide +kernel, by decide +kernel⟩,
    by decide +kernel⟩

/-- A round's parts agree, in whatever state. -/
theorem running_fits : running.RoundFits := by constructor <;> decide +kernel
theorem witness_RoundAndVerifierAgreeKept : running.RoundFits ∧ (inBurst 160 2).Sound :=
  ⟨running_fits, by constructor <;> decide +kernel⟩

/-- Both counts at their top, RETICENT and sending. -/
def strained : State :=
  sending .own { running with link := { running.link with state := .reticent, tec := 191, recCount := 255 } }
theorem witness_LinkControllerKept : strained.link.CountsFit ∧ strained.CopyFits :=
  ⟨by constructor <;> decide +kernel, by constructor <;> decide +kernel⟩

/-! ### States that meet the hypotheses of the rules over all commands -/

theorem witness_SettingsAndRecipesFixed : ∃ t, exec .uptimeTick running = .next t ∧ ¬ startsAfresh .uptimeTick :=
  ⟨_, rfl, by unfold startsAfresh; decide +kernel⟩

/-- The node with an operation at the head of its update queue. -/
def withOp (op : Op) (s : State) : State := { s with updates := ⟨[op], false⟩ }

/-- The node with resource 2 inhibited. -/
def inhibited : State := { node with board := { node.board with inhibit := (Vector.replicate 16 false).set 2 true } }

theorem witness_InhibitFlagsChangeByOperationOnly :
    (∃ t, exec .clearOperation (withOp (.clear 4) inhibited) = .next t
      ∧ (withOp (.clear 4) inhibited).board.inhibit[(2 : Res)] = true ∧ t.board.inhibit[(2 : Res)] = false) ∧
    (∃ t, exec .inhibitOperation (withOp (.inhibit 4) node) = .next t
      ∧ (withOp (.inhibit 4) node).board.inhibit[(2 : Res)] = false ∧ t.board.inhibit[(2 : Res)] = true) :=
  ⟨⟨after (exec .clearOperation (withOp (.clear 4) inhibited)), rfl, by decide +kernel⟩,
    ⟨after (exec .inhibitOperation (withOp (.inhibit 4) node)), rfl, by decide +kernel⟩⟩

/-- The node BARRED. -/
def barred : State := { node with link := { node.link with state := .barred } }
theorem witness_BarredUntilReset :
    ∃ t, exec .uptimeTick barred = .next t ∧ barred.link.state = .barred ∧ barred.link.role = .none := ⟨_, rfl, rfl, rfl⟩

/-- SHED stands set and is carried by the STATUS on the medium. -/
def shown : State :=
  sending .status { node with
    tx := { node.tx with status := some [] }, log := { node.log with flags := 4, carried := 4 } }
theorem witness_StickyFlagsClearOnlyByStatus :
    ∃ t, exec (.ownFrameEnd ⟨true, false, false⟩) shown = .next t ∧ shown.flag .shed = true ∧ t.flag .shed = false :=
  ⟨after (exec (.ownFrameEnd ⟨true, false, false⟩) shown), rfl, by decide +kernel⟩

/-- Six records wait. -/
def fullQueue (policy : Policy) (s : State) : State :=
  { s with settings := { s.settings with policy := policy }, log := { s.log with queue := List.replicate 6 begun } }
/-- The last fragment of the head of a full queue is on the medium, a finished record waiting behind it. -/
def lastFragment : State :=
  sending .stream { fullQueue .holdRounds (round .closing 0 0) with
    log := { (fullQueue .holdRounds (round .closing 0 0)).log with nextFragment := 2 } }
theorem witness_HoldRoundsDiscardsNothing :
    (∃ t, exec .stepTimerExpiry (fullQueue .holdRounds running) = .next t
      ∧ (fullQueue .holdRounds running).settings.policy = .holdRounds ∧ running.log.comp.isSome = true
      ∧ (fullQueue .holdRounds running).flag .recordDropped = false) ∧
    (∃ t, exec (.ownFrameEnd ⟨true, false, false⟩) lastFragment = .next t ∧ lastFragment.settings.policy = .holdRounds
      ∧ lastFragment.log.queue.length = 6 ∧ t.log.queue.length = 6 ∧ t.log.comp = none ∧ t.seq.state = .idle) ∧
    (fullQueue .holdRounds running).RoundFits ∧ lastFragment.RoundFits :=
  ⟨⟨_, rfl, by decide +kernel⟩, ⟨after (exec (.ownFrameEnd ⟨true, false, false⟩) lastFragment), rfl, by decide +kernel⟩,
    by constructor <;> decide +kernel, by constructor <;> decide +kernel⟩

theorem witness_StatusAtEachRoundChange :
    (∃ t, exec .stepTimerExpiry running = .next t ∧ t.seq.state ≠ running.seq.state) ∧
    (∃ t, exec .stepTimerExpiry (sending .status running) = .next t ∧ t.seq.state ≠ running.seq.state
      ∧ (sending .status running).link.medium = .busy ∧ (sending .status running).tx.copyFrom = some .status
      ∧ t.tx.copyFrom = some .status) :=
  ⟨⟨after (exec .stepTimerExpiry running), rfl, by decide +kernel⟩,
    ⟨after (exec .stepTimerExpiry (sending .status running)), rfl, by decide +kernel⟩⟩
/-- The suspension's STATUS, and one 7 ms later, with the time beside them (R89). -/
theorem witness_StatusAtEachRoundChange_suspend :
    let t := after (exec .stepTimerExpiry running)
    let u : State := { t with seq := { t.seq with suspendTimer := .from 7 } }
    running.tx.status.isSome = running.tx.statusSuspend.isSome ∧ t.seq.state = .suspended ∧ t.tx.statusSuspend = some 0
      ∧ (after (exec .statusPeriodExpiry u)).tx.statusSuspend = some 7 := by decide +kernel

/-! ### States that meet the hypotheses on reset, loading, start-up and lines -/

/-- A line whose level has left its debounced state. -/
def moving (level : Bool) : Line := ⟨level, !level, .from 49⟩

theorem witness_ResetHoldsTheNode :
    ({ running with port := { running.port with reset := moving true } } : State).port.reset.timer.on = true
      ∧ (moving true).level = true := by decide +kernel
theorem witness_LoaderReadsAndJudges :
    (State.reset.port.reset.timer.on = true ∧ State.reset.port.reset.level = false ∧ State.reset.loader.phase = .held) ∧
      (after (exec .resetFallingEdge State.reset)).loader.phase = .reading := by decide +kernel
/-- The head of an image with every resource of capacity 100 and PROD1 to PROD3 on resources 3, 4 and 5. -/
def threeLines : List Byte :=
  [0x3E, 0x91, 0x0A, 0x4F, 5, 1, 0, 2, 4, 0, 60, 1, 3, 30, 10, 0, 1, 0] ++ List.replicate 16 100 ++ [3, 4, 5, 3]
/-- With no image left, and with three holds to begin, of which the third waits. -/
theorem witness_StartUpReleasesTheBlocks :
    ({ State.reset with loader := ⟨.validating, .good, [], 0, 0⟩ } : State).loader.phase = .validating ∧
    (let s : State := { State.reset with
      loader := ⟨.validating, .good, threeLines, 0, 0⟩
      port := { Port.start with prod := Vector.replicate 4 ⟨true, false, .stopped⟩ } }
     s.loader.phase = .validating ∧ (after (exec .startUpComplete s)).updates.ops.length = 2
        ∧ (after (exec .startUpComplete s)).adm.waiting = [.ownInsert .product [⟨5, 255⟩] 5 .held]) := by decide +kernel
theorem witness_UptimeAndLineLevels :
    node.loader.phase = .running ∧ (node.loader.phase = .running ∨ Input.stop = .reset)
      ∧ (State.reset.loader.phase = .running ∨ Input.reset = .reset) := by decide +kernel

/-! ### States that meet the hypotheses on the list controller -/

/-- The k-th of many peers on resource 0, under urgency 43. -/
def peer (k : Nat) : Entry :=
  ⟨Fin.ofNat 64 k, k + 6, .cip, some 1, 1286 + k, .waiting, some ⟨40, 0⟩, false⟩
/-- A board with n peers on resource 0. -/
def crowd (n : Nat) : Board :=
  { Board.start with lists := (Vector.replicate 16 []).set 0 ((List.range n).map peer), free := Board.allFree.drop n }
/-- The first announcement of node 63: two resources, one of them named twice. -/
def newcomer : Announcement := ⟨63, 1343, .claiming, 40, [⟨0, 10⟩, ⟨0, 20⟩, ⟨15, 10⟩, ⟨3, 251⟩]⟩
/-- The announcement waits on a board of n peers. -/
def crowded (n : Nat) : State := withOp (.announce newcomer) { node with board := crowd n }

theorem only_absent : ∀ q : Res, cfg.capacity[q] = 0 → q = 15 := by decide +kernel
theorem peer_fits (k : Nat) (h : k < 57) : (peer k).Fits 5 := by
  constructor <;> (simp [peer]; try omega)
/-- A peer announces a run of 101 units of a resource of 100: its entry is new, and the resource is then overfull. -/
def greedy : State := withOp (.announce ⟨9, 1289, .running, 30, [⟨2, 101⟩]⟩) node
theorem crowded_ranked (n : Nat) (hn : n ≤ 57) (ha : ∀ r : Res, ((crowd n).lists[r]).Pairwise Entry.Before) :
    (crowded n).Ranked where
  ascending := ha
  entries := by
    intro r e h
    have key : ∀ q : Res, (crowd n).lists[q] = if q = 0 then (List.range n).map peer else [] := by
      intro q
      simp only [crowd, Fin.getElem_fin, Vector.getElem_set, Vector.getElem_replicate, Fin.ext_iff]
      simp only [Fin.val_zero, eq_comm]
    have h1 : e ∈ (crowd n).lists[r] := h
    rw [key] at h1
    split at h1
    · obtain ⟨k, hk, rfl⟩ := List.mem_map.1 h1
      exact peer_fits k (by rw [List.mem_range] at hk; omega)
    · cases h1
  absent := by
    intro r h
    obtain rfl := only_absent r h
    simp [crowded, withOp, crowd]
  queued := by
    intro op h
    cases h with
    | head => exact ⟨by decide, by decide, by decide⟩
    | tail _ h => cases h
  waiting := by intro op h; cases h
  node := by intro _; change 1 ≤ 5 ∧ 5 ≤ 63; decide
  image := by intro h; cases h
  urgency := by change (0 : Nat) ≤ 62; decide
  bases := by intro i; exact witness_LaneBoardRankedKept.bases i
theorem crowd_ascends : (∀ r : Res, ((crowd 56).lists[r]).Pairwise Entry.Before)
    ∧ ∀ r : Res, ((crowd 57).lists[r]).Pairwise Entry.Before := by
  unfold Entry.Before
  decide +kernel
theorem crowd_accounted : (crowd 56).Accounted ∧ (crowd 57).Accounted :=
  ⟨⟨List.Perm.of_eq (by decide +kernel), by decide +kernel⟩, ⟨List.Perm.of_eq (by decide +kernel), by decide +kernel⟩⟩

/-- At 8 free entries the newcomer's one listed pair is placed; at 7 it is not. -/
theorem witness_AnnouncementsUpdateTheBoard :
    ((crowded 56).Ranked ∧ (crowded 56).board.Accounted ∧ (crowded 57).Ranked ∧ (crowded 57).board.Accounted) ∧
    newcomer.role = .cip ∧ listedPairs cfg.capacity .cip [] newcomer.pairs = [⟨0, 10⟩]
      ∧ 7 + 1 ≤ (crowded 56).board.free.length ∧ (crowded 57).board.free.length ≤ 7
      ∧ (∀ r : Res, (crowded 57).board.find r 63 .cip = none)
      ∧ ({ newcomer with state := .held, key := 63 } : Announcement).role = .product
      ∧ (greedy.flag .overcommit = false ∧ (after (exec .applyAnnouncementCip greedy)).flag .overcommit = true)
      ∧ ((crowded 57).board.find 0 6 .cip).isSome = true
      ∧ (∀ x ∈ [(⟨9, 1289, .running, 30, [⟨2, 60⟩]⟩, some Verdict.shed), ((⟨9, 9, .held, 30, [⟨2, 255⟩]⟩ : Announcement), some .routeTaken)],
          let s := withOp (.announce x.1) running
          s.adm.own = .running ∧ s.tagCurrent = true ∧ s.seq.state = .running ∧ s.seq.attemptOpen = true
            ∧ verdictFor cfg.capacity (after (exec (Op.announce x.1).instr s)).board [2] = x.2)
      ∧ (let s := withOp (.announce ⟨9, 1289, .running, 30, [⟨2, 60⟩]⟩) (claimed .waiting .waiting .waiting)
         s.adm.own = .waiting ∧ s.canEvaluate = true ∧ ∃ p ∈ s.ownPairs, p.res = 2) :=
  ⟨⟨crowded_ranked 56 (by decide) crowd_ascends.1, crowd_accounted.1, crowded_ranked 57 (by decide) crowd_ascends.2,
    crowd_accounted.2⟩, by decide +kernel⟩

theorem witness_EntriesLeaveTheBoard :
    (withOp (.release 9 .cip 4) running).updates.ops = .release 9 .cip 4 :: [] ∧
    (withOp (.ownRemove .cip [2]) running).updates.ops = .ownRemove .cip [2] :: [] ∧
    (withDue node).board.whereIs 1 = some (2, { peerEntry with life := some ⟨0, 0⟩ }) ∧
    running.board.whereIs 1 = some (2, peerEntry) ∧ peerEntry.life.map (·.units) ≠ some 0 := by decide +kernel
theorem due_accounted : (withDue node).board.Accounted :=
  by constructor <;> decide +kernel

/-- Resource 2 is marked incomplete, for 8 s already. -/
def incomplete : State :=
  { node with
    board := { node.board with
      incomplete := (Vector.replicate 16 false).set 2 true, incompleteMs := (Vector.replicate 16 0).set 2 8000 } }
theorem witness_BoardFlagsChange :
    (withOp (.inhibit 0x8004) node).updates.ops = .inhibit 0x8004 :: [] ∧
    (withOp (.clear 0x8004) node).updates.ops = .clear 0x8004 :: [] ∧
    incomplete.board.incomplete[(2 : Res)] = true ∧ incomplete.board.peerRoom = true
      ∧ 8000 ≤ incomplete.board.incompleteMs[(2 : Res)] ∧ node.board.incompleteMs[(2 : Res)] < 8000 ∧
    (∀ own ∈ [OwnState.waiting, .claiming, .runPending],
      let s := withOp (.inhibit 0x8004) (claimed own .waiting .waiting)
      s.adm.own = own ∧ s.canEvaluate = true ∧ ∃ p ∈ s.ownPairs, (0x8004 : Word16).getLsbD p.res.val = true) := by decide +kernel

/-- The own entry is to become RUNNING, behind given peers on resource 2, while the round claims or runs. -/
def granted (st : RoundState) (peers : List Entry) (op : Op) : State :=
  let s := claimed .running .running st
  { s with
    board := board (peers ++ [ownEntry .running]) [], updates := ⟨[op], false⟩
    adm := { s.adm with granting := true, outstanding := 1 } }
theorem own_fits : (ownEntry .running).Fits 5 := by constructor <;> decide +kernel
theorem granted_ranked (st : RoundState) (peers : List Entry) (op : Op) (h : op.Fits 5)
    (ha : (peers ++ [ownEntry .running]).Pairwise Entry.Before) (hf : ∀ e ∈ peers, e.Fits 5) :
    (granted st peers op).Ranked where
  ascending := by
    intro r
    change ((board (peers ++ [ownEntry .running]) []).lists[r]).Pairwise Entry.Before
    simp only [board, Fin.getElem_fin, Vector.getElem_set, Vector.getElem_replicate]
    split
    · exact ha
    · exact List.Pairwise.nil
  entries := by
    intro r e h
    change e ∈ (board (peers ++ [ownEntry .running]) []).lists[r] at h
    simp only [board, Fin.getElem_fin, Vector.getElem_set, Vector.getElem_replicate] at h
    split at h
    · rcases List.mem_append.1 h with h | h
      · exact hf e h
      · rw [List.mem_singleton.1 h]
        exact own_fits
    · cases h
  absent := by
    intro r h
    obtain rfl := only_absent r h
    change (board (peers ++ [ownEntry .running]) []).lists[(15 : Res)] = []
    simp [board]
  queued := by
    intro o ho
    cases ho with
    | head => exact h
    | tail _ h => cases h
  waiting := by intro op h; cases h
  node := by intro _; change 1 ≤ 5 ∧ 5 ≤ 63; decide
  image := by intro h; cases h
  urgency := by change (20 : Nat) ≤ 62; decide
  bases := by intro i; exact witness_LaneBoardRankedKept.bases i

/-- Node 9 runs with 60 of resource 2, or holds it for product. -/
def peerRuns : Entry := ⟨1, 9, .cip, some 60, 1289, .running, some ⟨40, 0⟩, false⟩
def peerHolds : Entry := ⟨1, 9, .product, none, 9, .held, some ⟨40, 0⟩, false⟩
/-- The update that a grant places. -/
def grantUpdate : Op := .ownUpdate .cip [⟨2, 50⟩] 2757 .running

/-- An update that gives the running entry a better key, beside which 60 and 50 of 100 run. -/
def rekeyed : Op := .ownUpdate .cip [⟨2, 50⟩] 2693 .running

/-- An insert with one resource absent; an update without a verdict, one shed, one whose route is taken, one that overcommits. -/
theorem witness_OwnEntriesPlaced :
    ((granted .running [] (.ownInsert .cip [⟨15, 1⟩] 2757 .waiting)).Ranked ∧ (granted .claiming [peerEntry] grantUpdate).Ranked ∧
      (granted .running [peerRuns] grantUpdate).Ranked ∧ (granted .running [peerHolds] grantUpdate).Ranked) ∧
    ([3, 15] : List Res).Nodup ∧ 2 ≤ running.board.free.length ∧
    (∀ x ∈ [(peerEntry, none), (peerRuns, some .shed), (peerHolds, some Verdict.routeTaken)],
      let s := granted .claiming [x.1] grantUpdate
      s.adm.own = .running ∧ s.tagCurrent = true ∧ s.seq.state = .claiming ∧ s.seq.attemptOpen = true
        ∧ s.board.findOwn 2 .cip = some (ownEntry .running)
        ∧ verdictFor s.settings.capacity (after (exec .ownUpdate s)).board [2] = x.2) ∧
    ((granted .running [peerEntry] (.ownInsert .product [⟨2, 255⟩] 5 .held)).Ranked
      ∧ (let s := granted .running [peerEntry] (.ownInsert .product [⟨2, 255⟩] 5 .held)
         s.RunStands ∧ s.settings.capacity[(2 : Res)] ≠ 0 ∧ s.board.findOwn 2 .cip = some (ownEntry .running))) ∧
    ((granted .running [peerRuns] rekeyed).Ranked ∧ (granted .running [peerRuns] rekeyed).flag .overcommit = false ∧
      (after (exec .ownUpdate (granted .running [peerRuns] rekeyed))).flag .overcommit = true) := by
  refine ⟨⟨granted_ranked _ _ _ ⟨by decide, by decide, by decide, by decide⟩ ?_ ?_,
    granted_ranked _ _ _ ⟨by decide, by decide, by decide, by decide⟩ ?_ ?_,
    granted_ranked _ _ _ ⟨by decide, by decide, by decide, by decide⟩ ?_ ?_,
    granted_ranked _ _ _ ⟨by decide, by decide, by decide, by decide⟩ ?_ ?_⟩, by decide +kernel, by decide +kernel,
    by decide +kernel, ⟨granted_ranked _ _ _ ⟨by decide, by decide⟩ ?_ ?_, by constructor <;> decide +kernel, by decide +kernel⟩,
    granted_ranked _ _ _ ⟨by decide, by decide, by decide, by decide⟩ ?_ ?_, by decide +kernel⟩
  all_goals first
    | (unfold Entry.Before; decide +kernel)
    | (intro e h; cases h; done)
    | (intro e h; obtain rfl := List.mem_singleton.1 h; constructor <;> decide +kernel)

/-! ### States that meet the hypotheses on the admission unit -/

/-- An evaluation of the present stay is at the head of the queue, with resource 2 inhibited or open. -/
def evaluating (own : OwnState) (entry : EntryState) (st : RoundState) (settle inhibit : Bool) : State :=
  let s := claimed own entry st
  { s with
    board := { s.board with inhibit := (Vector.replicate 16 false).set 2 inhibit }
    updates := ⟨[.evaluate], false⟩
    adm := { s.adm with evalReq := some ⟨0, settle⟩, outstanding := 1 } }

/-- Each case of an outcome: PASS on the open resource, INHIBITED on the closed one. -/
theorem witness_EvaluationActedOn :
    (∀ own ∈ [OwnState.none, .waiting, .claiming, .runPending], ∀ settle inhibit : Bool,
      let s := evaluating own .waiting .waiting settle inhibit
      s.updates.ops = .evaluate :: [] ∧ s.adm.evalReq = some ⟨s.adm.stay, settle⟩ ∧ s.adm.wanted = false
        ∧ s.adm.own ≠ .running ∧ s.canEvaluate = true
        ∧ fitTest s.settings.capacity s.board = if inhibit then .inhibited else .pass) ∧
    (evaluating .waiting .waiting .waiting false false).tagCurrent = true
      ∧ (evaluating .claiming .claiming .claiming true true).seq.state = .claiming := by decide +kernel

/-- A waiting own step at a given urgency, the aging interval over. -/
def aged (urgency : Nat) : State :=
  let s := claimed .waiting .waiting .waiting
  { s with adm := { s.adm with urgency := urgency, aging := cfg.agingMs } }
theorem witness_AgingAndLearning :
    (∀ u ∈ [0, 61, 62], (aged u).adm.own = .waiting ∧ (aged u).adm.state = .active ∧ (aged u).onLine = true
      ∧ (aged u).adm.urgency ≤ 62 ∧ (aged u).link.state = .engaged
      ∧ (aged u).settings.agingMs ≤ (aged u).adm.aging)
    ∧ (claimed .waiting .waiting .waiting).adm.aging < cfg.agingMs ∧
    ({ aged 62 with adm := { (aged 62).adm with learning := .from 8000 } } : State).adm.learning.on = true := by
  decide +kernel

theorem witness_OwnStepTimers :
    let c := claimed .claiming .claiming .claiming
    let p := claimed .runPending .claiming .claiming
    let w := claimed .waiting .waiting .waiting
    (c.adm.settle.on = true ∧ c.adm.own = .claiming ∧ c.canEvaluate = true
      ∧ ({ c with link := { c.link with state := .reticent } } : State).canEvaluate = false) ∧
    (c.adm.lapse.on = true ∧ p.adm.lapse.on = true ∧ p.adm.own = .runPending) ∧
    (w.adm.refresh.on = true ∧ w.adm.own = .waiting ∧ running.adm.refresh.on = true ∧ running.adm.own = .running) ∧
    (running.adm.guard.on = true ∧ running.settings.guardMs ≤ running.adm.guard.ms ∧ c.adm.guard.ms < cfg.guardMs ∧ running.tagCurrent = true ∧ running.seq.state = .running
      ∧ running.seq.attemptOpen = true) := by decide +kernel

/-! ### States that meet the hypotheses on rounds and samples -/

/-- The REQ line of a slot has risen. -/
def reqUp (i : Fin 4) (s : State) : State := { s with port := { s.port with req := modAt s.port.req i fun _ => moving true } }

theorem reqUp_asks (i : Fin 4) (s : State) (h : s.loader.phase = .running) (hr : ((reqUp i s).port.req[i]).rising = true) :
    (reqUp i s).Asks (.reqRisingEdge i) i.val 255 := .inl ⟨i, rfl, h, hr, rfl, rfl⟩

/-- A COMMAND to node 5 reaches it while it receives, ENGAGED and not in hold-off. -/
theorem request_reaches : (receiving running).Reaches (cmd 5 0 4 19) 0 ∧ (receiving running).Reaches (cmd 64 0 2 20) 0 :=
  ⟨⟨by constructor <;> decide +kernel, by decide +kernel⟩, ⟨by constructor <;> decide +kernel, by decide +kernel⟩⟩

/-- Refused: slot 4, the unusable slot 3, the slot in progress, STOP active, BARRED. Pending: slot 2. -/
theorem witness_RequestRefusedOrPending :
    ((receiving running).Asks (.request (cmd 5 0 4 19)) 4 19 ∧ (receiving running).Asks (.request (cmd 64 0 2 20)) 2 20 ∧
      (reqUp 3 node).Asks (.reqRisingEdge 3) 3 255 ∧ (reqUp 0 running).Asks (.reqRisingEdge 0) 0 255 ∧
      (reqUp 2 barred).Asks (.reqRisingEdge 2) 2 255) ∧
    (running.store.slots[(3 : Fin 4)]).usable = false ∧ running.seq.slot = 0 ∧ running.seq.state ≠ .idle ∧
    ({ reqUp 2 node with port := { (reqUp 2 node).port with stop := ⟨true, true, .stopped⟩ } } : State).port.stop.debounced
      = true ∧
    (running.store.slots[(2 : Fin 4)]).usable = true ∧ running.port.stop.debounced = false ∧ running.link.state ≠ .barred :=
  ⟨⟨.inr ⟨_, rfl, request_reaches.1, by decide, by decide⟩, .inr ⟨_, rfl, request_reaches.2, by decide, by decide⟩,
    reqUp_asks 3 node rfl (by decide +kernel), reqUp_asks 0 running rfl (by decide +kernel),
    reqUp_asks 2 barred rfl (by decide +kernel)⟩, by decide +kernel⟩

/-- A request for a slot is pending, with end index 3. -/
def withPending (i : Fin 4) (s : State) : State :=
  { s with seq := { s.seq with pendingSet := s.seq.pendingSet.set i (some 3) } }

/-- Slot 0 begins with a claimed step, slot 1 with a held one, slot 2 with one that claims nothing; one for slot 2 while slot 0
is pending. -/
theorem witness_RequestBeginsRound :
    ((reqUp 0 node).Asks (.reqRisingEdge 0) 0 255 ∧ (reqUp 1 node).Asks (.reqRisingEdge 1) 1 255 ∧
      (reqUp 2 node).Asks (.reqRisingEdge 2) 2 255) ∧
    (∀ i ∈ [(0 : Fin 4), 1, 2], (node.store.slots[i]).usable = true) ∧ node.port.stop.debounced = false
      ∧ node.link.state ≠ .barred ∧ node.seq.state = .idle ∧ (∀ j : Fin 4, node.seq.pendingSet[j] = none)
      ∧ ((reqUp 2 (withPending 0 node)).Asks (.reqRisingEdge 2) 2 255 ∧ (withPending 0 node).seq.pendingSet[(0 : Fin 4)] ≠ none
        ∧ (withPending 0 node).seq.state = .idle) :=
  ⟨⟨reqUp_asks 0 node rfl (by decide +kernel), reqUp_asks 1 node rfl (by decide +kernel),
    reqUp_asks 2 node rfl (by decide +kernel)⟩, by decide +kernel, by decide +kernel, by decide +kernel, by decide +kernel,
    by decide +kernel, reqUp_asks 2 (withPending 0 node) rfl (by decide +kernel), by decide +kernel⟩

/-- CONFIRM has risen. -/
def confirmUp (s : State) : State := { s with port := { s.port with confirm := moving true } }
theorem witness_ConfirmAndResume :
    (∀ st ∈ [RoundState.holdWait, .suspended, .idle],
      let s := confirmUp (round st 1 0)
      s.loader.phase = .running ∧ s.port.confirm.rising = true ∧ s.seq.state = st ∧ s.link.state ≠ .barred
        ∧ (st = .holdWait → s.seq.stepTimer = .stopped ∧ s.ver.mode = .standby)) ∧
    (let s : State := { confirmUp (round .suspended 1 0) with link := barred.link }
     s.loader.phase = .running ∧ s.port.confirm.rising = true ∧ s.seq.state ≠ .holdWait ∧ s.link.state = .barred) ∧
    (receiving (round .suspended 0 0)).Reaches (cmd 5 2 0 0) 2 ∧ (receiving running).Reaches (cmd 5 2 0 0) 2 :=
  ⟨by decide +kernel, by decide +kernel, ⟨by constructor <;> decide +kernel, by decide +kernel⟩,
    ⟨by constructor <;> decide +kernel, by decide +kernel⟩⟩

/-- STOP has changed. -/
def stopMoved (level : Bool) (s : State) : State := { s with port := { s.port with stop := moving level } }
/-- Five records wait. -/
def fiveQueued (s : State) : State := { s with log := { s.log with queue := List.replicate 5 begun } }
theorem abort_reaches (s : State) (h : s = fiveQueued running ∨ s = node ∨ s = withPending 2 (fiveQueued running)) :
    (receiving s).Reaches (cmd 5 1 0 0) 1 := by
  rcases h with rfl | rfl | rfl <;> exact ⟨by constructor <;> decide +kernel, by decide +kernel⟩
theorem witness_RoundEndsEarly :
    ((receiving (fiveQueued running)).EndsRound (.abort (cmd 5 1 0 0)) .aborted ∧
      (stopMoved true (fullQueue .holdRounds running)).EndsRound .stopChange .stopped ∧
      (fullQueue .dropOldest (round .suspended 0 0)).EndsRound .suspendTimerExpiry .abandoned) ∧
    ((receiving (fiveQueued running)).RoundFits ∧ (stopMoved true (fullQueue .holdRounds running)).RoundFits ∧
      (fullQueue .dropOldest (round .suspended 0 0)).RoundFits) ∧
    ((receiving node).Reaches (cmd 5 1 0 0) 1 ∧ node.seq.state = .idle) ∧
    ((receiving (withPending 2 (fiveQueued running))).EndsRound (.abort (cmd 5 1 0 0)) .aborted ∧
      (receiving (withPending 2 (fiveQueued running))).RoundFits ∧
      (withPending 2 (fullQueue .holdRounds (round .suspended 0 0))).EndsRound .suspendTimerExpiry .abandoned ∧
      (withPending 2 (fullQueue .holdRounds (round .suspended 0 0))).RoundFits) ∧
    (fiveQueued running).log.queue.length < 6 ∧ running.log.comp = some ⟨begun, false⟩
      ∧ (round .suspended 0 0).log.comp = some ⟨begun, false⟩ ∧ (∀ j : Fin 4, running.seq.pendingSet[j] = none)
      ∧ (stopMoved false running).port.stop.level = false ∧ (stopMoved true (round .closing 0 0)).seq.state = .closing
      ∧ (stopMoved true node).port.stop.timer.on = true :=
  ⟨⟨.inl ⟨_, rfl, abort_reaches _ (.inl rfl), rfl, rfl⟩, .inr (.inl ⟨rfl, rfl, rfl, rfl, rfl, rfl⟩),
    .inr (.inr ⟨rfl, rfl, rfl, rfl⟩)⟩,
    ⟨by constructor <;> decide +kernel, by constructor <;> decide +kernel, by constructor <;> decide +kernel⟩,
    ⟨abort_reaches _ (.inr (.inl rfl)), rfl⟩,
    ⟨.inl ⟨_, rfl, abort_reaches _ (.inr (.inr rfl)), rfl, rfl⟩, by constructor <;> decide +kernel,
      .inr (.inr ⟨rfl, rfl, rfl, rfl⟩), by constructor <;> decide +kernel⟩, by decide +kernel⟩

/-- The line PROD1 has changed, or its hold stands with its refresh running. -/
theorem witness_ProductHoldsFollowTheLines :
    (∀ level : Bool,
      let s : State := { node with port := { node.port with prod := modAt node.port.prod 0 fun _ => moving level } }
      s.loader.phase = .running ∧ (s.port.prod[(0 : Fin 4)]).timer.on = true ∧ s.onLine = true ∧ s.holdRes 0 = some 3) ∧
    (let s : State := { node with adm := { node.adm with holds := modAt node.adm.holds 0 fun _ => ⟨true, .from 500⟩ } }
     s.holdRes 0 = some 3 ∧ (s.adm.holds[(0 : Fin 4)]).holding = true ∧ (s.adm.holds[(0 : Fin 4)]).refresh.on = true
        ∧ (sending (.product 0) s).tx.copyFrom = some (.product 0)) := by
  decide +kernel

/-- A reply of 12 bytes with its check. -/
def reply (number : Byte) (tr : Byte) (valid : Byte) : List Byte :=
  let b : List Byte := [number, 0, tr, 0, 100, 0, 180, 0, 0, valid]
  b ++ bytes16 (checkBytes b).toNat
/-- The request is out. -/
def awaiting (s : State) : State := { s with port := { s.port with exchange := .awaiting, requestNumber := 7 } }
theorem witness_SampleExchange :
    (node.loader.phase = .running ∧ node.port.exchange = .idle) ∧
    (let s := awaiting { node with port := { node.port with absent := 2 } }
     s.port.exchange = .awaiting ∧ replyCheckGood (reply 7 200 15) = true ∧ byteAt 0 (reply 7 200 15) 0 = s.port.requestNumber
        ∧ replyCheckGood (List.replicate 12 0) = false ∧ min (s.port.absent + 1) s.settings.sensorLimit = 3
        ∧ (s.ver.takeSample s.settings.sampleMs s.settings.sensorLimit s.curStep (s.convSet s.curStep)
            (replySample (reply 7 200 15))).report = .nothing
        ∧ (s.ver.takeSample s.settings.sampleMs s.settings.sensorLimit s.curStep (s.convSet s.curStep)
            ⟨none, none, none, none⟩).report = .nothing
        ∧ byteAt 0 (reply 8 200 15) 0 ≠ s.port.requestNumber) := by decide +kernel

/-- In band with room and with 7 left, out of band within and past the grace, channel absent below and at the limit, TIMED. -/
theorem witness_BurstSampleCredits :
    (inBurst 153 2).mode = .burst ∧ caustic.timed = false
      ∧ inBand caustic (compute (some causticSet) (full 700 150 9750)) = true
      ∧ inBand caustic (compute (some causticSet) (full 699 150 9750)) = false
      ∧ inBand caustic (compute (some causticSet) ⟨some 752, some 182, some 180, none⟩) = false
      ∧ requiredPresent caustic ⟨some 752, some 182, some 180, none⟩ = false
      ∧ (inBurst 153 2).returned + 180 * 500 < 2 ^ 40
      ∧ metered.timed = true ∧ drip.timed = false
      ∧ caustic.routing = .divert ∧ rinse.routing = .drain ∧ metered.routing = .recover
      ∧ (compute (some causticSet) (full 752 182 9750)).conc = some 100 ∧ (compute none (full 752 182 9750)).conc = none
      ∧ (∀ kappa ∈ [7420, 13913], inBand caustic (compute (some causticSet) (full 700 150 kappa)) = true)
      ∧ (∀ x ∈ [full 700 150 7300, full 700 150 14000, full 700 149 9113, ⟨none, some 150, none, some 9113⟩,
          ⟨some 700, none, none, some 9113⟩], inBand caustic (compute (some causticSet) x) = false)
      ∧ inBand drip (compute none ⟨some 0, some 0, none, none⟩) = true ∧ requiredPresent drip ⟨some 0, some 0, none, none⟩ = true
      ∧ 2 ^ 40 ≤ ({ inBurst 153 2 with returned := 2 ^ 40 - 1 } : Verifier).returned + 180 * 500
      ∧ ({ inBurst 153 2 with mode := .pause } : Verifier).mode = .pause ∧ Verifier.start.mode = .off := by decide +kernel

/-- A running burst one sample short of its required credit, its exchange awaiting. -/
def lastSample (slot : Fin 4) (pointer : Fin 20) (repeats : Nat) : State :=
  awaiting { claimed .running .running .running with
    seq := { running.seq with slot := slot, pointer := pointer, repeats := repeats }
    ver := { running.ver with credit := 1904, sensorLoss := 2 } }
/-- The report of a state's sample. -/
def reportOf (s : State) (valid : Byte) : VerReport :=
  (s.ver.takeSample s.settings.sampleMs s.settings.sensorLimit s.curStep (s.convSet s.curStep)
    (replySample (reply 7 200 valid))).report
/-- The report of a sample with every channel absent. -/
def absentReport (s : State) : VerReport :=
  (s.ver.takeSample s.settings.sampleMs s.settings.sensorLimit s.curStep (s.convSet s.curStep)
    ⟨none, none, none, none⟩).report
/-- The hypotheses that its clauses share. -/
theorem lastSample_fits : (lastSample 0 0 2).RoundFits ∧ (lastSample 0 0 1).RoundFits ∧ (lastSample 2 1 1).RoundFits
    ∧ (lastSample 2 0 1).RoundFits ∧ (lastSample 2 0 2).RoundFits :=
  ⟨by constructor <;> decide +kernel, by constructor <;> decide +kernel, by constructor <;> decide +kernel,
    by constructor <;> decide +kernel, by constructor <;> decide +kernel⟩
/-- Sensor lost; a pause; a new burst at once; the last step; a step not chained; a chained one. -/
theorem witness_SampleReportsMoveTheRound :
    (∀ valid ∈ [(14 : Byte), 15], replyCheckGood (reply 7 200 valid) = true ∧ byteAt 0 (reply 7 200 valid) 0 = 7) ∧
    reportOf (lastSample 0 0 2) 14 = .sensorLost ∧
    (reportOf (lastSample 0 0 2) 15 = .burstComplete ∧ 0 < (lastSample 0 0 2).curStep.pauseTime) ∧
    (reportOf (lastSample 2 0 2) 15 = .burstComplete ∧ (lastSample 2 0 2).curStep.pauseTime = 0) ∧
    (reportOf (lastSample 2 1 1) 15 = .burstComplete ∧ (lastSample 2 1 1).seq.pointer.val = (lastSample 2 1 1).lastIndex
      ∧ (lastSample 2 1 1).log.queue.length < 6) ∧
    (reportOf (lastSample 2 0 1) 15 = .burstComplete ∧ (lastSample 2 0 1).seq.pointer.val ≠ (lastSample 2 0 1).lastIndex
      ∧ ((lastSample 2 0 1).stepAt 1).chain = false) ∧
    (reportOf (lastSample 0 0 1) 15 = .burstComplete ∧ (lastSample 0 0 1).seq.pointer.val ≠ (lastSample 0 0 1).lastIndex
      ∧ ((lastSample 0 0 1).stepAt 1).chain = true ∧ (lastSample 0 0 1).curStep.pairs ≠ []
      ∧ (lastSample 0 0 1).adm.own = .running) ∧
    (replyCheckGood (List.replicate 12 0) = false ∧ (absentReport (lastSample 0 0 2)) = .sensorLost
      ∧ absentReport (lastSample 2 1 1) = .burstComplete) := by decide +kernel
/-- A valid reply, a damaged one and the time limit end the exchange. -/
theorem lastSample_ends :
    (lastSample 0 0 2).EndsExchange (.sampleReply (reply 7 200 15)) (replySample (reply 7 200 15)) 0 false ∧
    (lastSample 0 0 2).EndsExchange (.sampleReply (List.replicate 12 0)) ⟨none, none, none, none⟩ 1 false ∧
    (lastSample 2 1 1).EndsExchange .replyTimeout ⟨none, none, none, none⟩ 1 false :=
  ⟨.inl ⟨⟨_, rfl, by decide +kernel, by decide +kernel, rfl⟩, rfl, rfl⟩,
    .inr ⟨.inr ⟨_, rfl, by decide +kernel⟩, rfl, by decide +kernel, by decide +kernel⟩,
    .inr ⟨.inl rfl, rfl, by decide +kernel, by decide +kernel⟩⟩

theorem witness_StepAndPauseTimers :
    (running.seq.stepTimer.on = true ∧ running.curStep.limit * 1000 ≤ running.seq.stepTimer.ms
      ∧ node.seq.stepTimer.ms < node.curStep.limit * 1000 ∧ running.seq.state = .running ∧ running.seq.attemptOpen = true) ∧
    (let s : State := { running with seq := { running.seq with phase := .pause, pauseTimer := .from 0 } }
     s.seq.pauseTimer.on = true ∧ s.seq.state = .running ∧ s.seq.phase = .pause) := by decide +kernel

/-! ### States that meet the hypotheses on the hall link -/

/-- The node receiving a good frame, ENGAGED and not in hold-off, with eleven operations waiting. -/
def listening : State := { receiving node with updates := ⟨List.replicate 11 (.inhibit 1), false⟩ }

/-- A frame of node 9: a CLAIM for resource 2, one cut short, and the like of the other kinds. -/
def claimFrame : RxFrame := rx 3 1289 [1, 40, 1, 2, 30]
def claimCut : RxFrame := rx 3 1289 [1, 40, 1, 2]

theorem witness_HeardFramesHandedOn :
    (listening.Hears 3 claimFrame ∧ listening.Hears 3 claimCut ∧ listening.Hears 2 (rx 2 9 [0, 0, 4]) ∧
      listening.Hears 0 (rx 0 60 [0, 4]) ∧ listening.Hears 1 (rx 1 60 [255, 255])) ∧
    (listening.Hears 5 (rx 5 9 (List.replicate 12 0)) ∧ listening.Hears 6 (rx 6 9 (List.replicate 12 0)) ∧
      listening.Hears 7 (rx 7 9 []) ∧ listening.Hears 15 (rx 15 9 []) ∧ listening.Hears 4 (rx 4 60 [6, 0, 0, 0]) ∧
      listening.Hears 4 (commandRx (cmd 6 0 0 0) 0)) ∧
    readAnnounce claimFrame = some ⟨9, 1289, .claiming, 40, [⟨2, 30⟩]⟩ ∧ readAnnounce claimCut = none
      ∧ commandAddressed 5 1 (rx 4 60 [6, 0, 0, 0]) = false ∧ commandAddressed 5 1 (commandRx (cmd 6 0 0 0) 0) = false
      ∧ commandAddressed 5 1 (rx 4 60 [64, 0, 0, 0]) = true ∧ commandAddressed 5 1 (rx 4 60 [65, 0, 0, 0]) = false :=
  ⟨⟨by constructor <;> decide +kernel, by constructor <;> decide +kernel, by constructor <;> decide +kernel,
    by constructor <;> decide +kernel, by constructor <;> decide +kernel⟩,
    ⟨by constructor <;> decide +kernel, by constructor <;> decide +kernel, by constructor <;> decide +kernel,
    by constructor <;> decide +kernel, by constructor <;> decide +kernel, by constructor <;> decide +kernel⟩,
    by decide +kernel⟩

/-- A RETICENT node that listens, at given counts. -/
def reticent (tec recCount : Nat) (s : State) : State :=
  { receiving s with link := { (receiving s).link with state := .reticent, tec := tec, recCount := recCount } }
/-- REC falls to 79 with TEC below 80, or stays too high, a step waiting. -/
theorem witness_HeardFramesHandedOn_reticent :
    let w := claimed .waiting .waiting .waiting
    ((reticent 79 80 w).HearsReticent 3 claimFrame ∧ (reticent 79 80 w).HearsReticent 5 (rx 5 9 (List.replicate 12 0))) ∧
    ((reticent 80 80 w).HearsReticent 0 (rx 0 60 [0, 4]) ∧ (reticent 0 82 w).HearsReticent 7 (rx 7 9 [])) ∧
    (reticent 79 80 w).adm.own = .waiting ∧ (reticent 79 80 w).adm.state = .active :=
  ⟨⟨⟨rfl, by decide +kernel, by constructor <;> decide +kernel⟩, ⟨rfl, by decide +kernel, by constructor <;> decide +kernel⟩⟩,
    ⟨⟨rfl, by decide +kernel, by constructor <;> decide +kernel⟩, ⟨rfl, by decide +kernel, by constructor <;> decide +kernel⟩⟩, rfl, rfl⟩

/-- Hold-off began after the frame had been answered, or ended since. -/
def moved (holdOff : Bool) (s : State) : State :=
  { s with
    link := { s.link with holdOffMoved := true }
    updates := ⟨List.replicate (if holdOff then 12 else 8) (.inhibit 1), holdOff⟩ }
/-- A frame answered before hold-off last moved. -/
def early (f : RxFrame) : RxFrame := { f with early := true }
/-- An early frame is placed in hold-off; an unaddressed COMMAND and a STATUS are taken there; an addressed COMMAND of an unknown code
or cut short is taken; and a RETICENT node hears what an ENGAGED one does. -/
theorem witness_HeardFramesHandedOn_holdOff :
    ((moved true (receiving node)).Hears 3 (early claimFrame) ∧ ¬ (moved true (receiving node)).HeldOffAt (early claimFrame)
      ∧ (moved true (receiving node)).HeldOffAt claimFrame ∧ (moved false (receiving node)).HeldOffAt (early claimFrame)) ∧
    (let s : State := { moved true (receiving node) with updates := ⟨[], false⟩ }
     s.Hears 5 (rx 5 9 (List.replicate 12 0)) ∧ s.Hears 4 (rx 4 60 [6, 0, 0, 0])) ∧
    (listening.Hears 4 (rx 4 60 [5, 4, 0, 0]) ∧ listening.Hears 4 (rx 4 60 [5, 0, 0])
      ∧ commandAddressed 5 1 (rx 4 60 [5, 4, 0, 0]) = true ∧ commandAddressed 5 1 (rx 4 60 [5, 0, 0]) = true) ∧
    ((reticent 80 0 node).Hears 3 claimFrame ∧ (reticent 79 81 node).Hears 3 claimFrame ∧ (reticent 191 255 node).Hears 3 claimFrame) :=
  ⟨⟨by constructor <;> decide +kernel, by decide +kernel, by decide +kernel, by decide +kernel⟩,
    ⟨by constructor <;> decide +kernel, by constructor <;> decide +kernel⟩,
    ⟨by constructor <;> decide +kernel, by constructor <;> decide +kernel, by decide +kernel, by decide +kernel⟩,
    by constructor <;> decide +kernel, by constructor <;> decide +kernel, by constructor <;> decide +kernel⟩
/-- COMMANDs to a RETICENT node: one that stays so, one answered before hold-off began, one by which the node returns to ENGAGED. -/
theorem witness_commands_in_reticent :
    (reticent 80 80 running).Reaches (cmd 5 2 0 0) 2 ∧
    (moved true (reticent 191 0 running)).Reaches { cmd 5 0 4 19 with early := true } 0 ∧
    (∀ own ∈ [OwnState.none, .waiting],
      let s := reticent 79 80 (claimed own .waiting .waiting)
      s.adm.own = own ∧ 0 < s.link.recCount ∧ s.link.recCount ≤ 80 ∧ s.link.tec < 80 ∧ s.updates.ops.length < 11) ∧
    (reticent 79 80 (claimed .waiting .waiting .waiting)).HearsReticent 4 (commandRx (cmd 5 1 0 0) 1) :=
  ⟨⟨by constructor <;> decide +kernel, by decide +kernel⟩, ⟨by constructor <;> decide +kernel, by decide +kernel⟩, by decide +kernel,
    ⟨rfl, by decide +kernel, by constructor <;> decide +kernel⟩⟩

theorem witness_ReportAndPeriodMakeStatus : (receiving running).Reaches (cmd 5 3 0 0) 3 ∧ running.loader.phase = .running :=
  ⟨⟨by constructor <;> decide +kernel, by decide +kernel⟩, rfl⟩

/-- The receiving node with given counts. -/
def counted (tec recCount : Nat) (st : LinkState) (s : State) : State :=
  { receiving s with link := { (receiving s).link with tec := tec, recCount := recCount, state := st } }
/-- A frame under this node's own number. -/
def twin (kind : Nat) : RxFrame := rx kind 5 (List.replicate 12 0)
/-- In hold-off; and a frame under this node's number of each kind. -/
theorem witness_ReceiverTurnsFramesAway :
    (∀ r ∈ [94, 95], let s := counted 95 r .engaged (claimed .claiming .claiming .claiming)
      s.loader.phase = .running ∧ s.link.role = .receiver ∧ s.link.medium = .busy ∧ s.link.tec < 96
        ∧ s.link.state = .engaged ∧ s.link.recCount = r ∧ s.adm.own = .claiming) ∧
    (∀ x ∈ [(80, 0), (191, 255), (0, 79), (0, 255)],
      let l := (counted x.1 x.2 .reticent node).link
      l.state = .reticent ∧ l.tec < 192 ∧ l.recCount ≤ 255 ∧ (80 ≤ l.tec ∨ 79 ≤ l.recCount) ∧ l.role = .receiver) ∧
    (counted 95 255 .detached node).link.state = .detached ∧
    (let s : State := { receiving node with updates := ⟨List.replicate 12 (.inhibit 1), true⟩ }
     s.onLine = true ∧ s.updates.holdOff = true ∧ claimFrame.early = false ∧ checkGood 3 claimFrame = true
        ∧ checkGood 2 (rx 2 9 [0, 0, 4]) = true ∧ checkGood 0 (rx 0 60 [0, 4]) = true ∧ checkGood 1 (rx 1 60 [0, 4]) = true
        ∧ ∀ code ∈ [(0 : Byte), 1, 2, 3], checkGood 4 (commandRx (cmd 5 code 0 0) code) = true
          ∧ commandAddressed s.settings.node s.settings.groups (commandRx (cmd 5 code 0 0) code) = true) ∧
    (let s := receiving running
     s.onLine = true ∧ s.updates.holdOff = false ∧ s.seq.state = .running ∧ s.seq.attemptOpen = true
        ∧ (∀ kind ∈ List.range 7, checkGood kind (twin kind) = true ∧ senderNumber kind (twin kind) = some s.settings.node)) := by
  decide +kernel

/-- Hold-off has ended since the answer; and a DETACHED node hears its own number, the others accepting. -/
theorem witness_ReceiverTurnsFramesAway_moved :
    (let s := moved false (receiving node)
     s.onLine = true ∧ s.HeldOffAt (early claimFrame) ∧ checkGood 3 (early claimFrame) = true) ∧
    (let s := counted 192 0 .detached (round .running 2 0)
     let f : RxFrame := { twin 5 with others := ⟨true, false, false⟩ }
     s.link.role = .receiver ∧ s.link.medium = .busy ∧ s.link.state = .detached ∧ f.others.accept = true ∧ checkGood 5 f = true
        ∧ senderNumber 5 f = some s.settings.node ∧ s.seq.state = .running ∧ s.seq.attemptOpen = true) := by decide +kernel

/-- The node with its own step's WAIT pending. -/
def offering (s : State) : State := { s with tx := { s.tx with own := some (.announce .wait 2757 30 [⟨2, 50⟩]) } }
/-- The node in hold-back. -/
def heldBack (s : State) : State := { s with tx := { s.tx with holdBack := .from 10 } }
theorem witness_MediumAndChoice :
    (let s : State := { offering node with link := { node.link with medium := .busy } }
     s.loader.phase = .running ∧ s.link.role = .none ∧ s.link.state ≠ .barred
        ∧ (offering node).choose.isSome = true ∧ node.choose = none) ∧
    ((heldBack (offering node)).tx.holdBack.on = true ∧ barred.link.state ≠ .engaged ∧ barred.link.state ≠ .reticent) ∧
    node.link.medium = .idle ∧ (sending .own (offering node)).link.role = .sender := by decide +kernel
/-- A node on an idle medium is free to offer, with a frame pending and without; after a command only without. -/
theorem free_to_offer : (offering node).FreeToOffer ∧ node.FreeToOffer
    ∧ exec .uptimeTick node = .next (after (exec .uptimeTick node)) ∧ (after (exec .uptimeTick node)).FreeToOffer :=
  ⟨by constructor <;> decide +kernel, by constructor <;> decide +kernel, rfl, by constructor <;> decide +kernel⟩

/-- A copy of each slot's content on the medium, at a given TEC. -/
def copying (slot : SlotId) (tec : Nat) (st : LinkState) (s : State) : State :=
  let q := sending slot s
  { q with link := { q.link with tec := tec, state := st } }
/-- The own step's RUN or CLAIM, a product announcement, a STATUS and a record are pending. -/
def pendingAll (x : OwnFrame) (s : State) : State :=
  { s with
    tx := { s.tx with own := some x, product := (Vector.replicate 4 none).set 0 (some (.announce 30 3)), status := some [] }
    log := { s.log with queue := [begun], flags := 4, carried := 4 } }
theorem witness_OwnCopyEnds :
    (∀ slot ∈ [SlotId.own, .product 0, .status, .stream], ∀ mark : Bool,
      let q := copying slot 91 .engaged (pendingAll (.announce .run 2757 30 [⟨2, 50⟩]) (claimed .runPending .claiming .idle))
      let s : State := { q with tx := { q.tx with marks := q.tx.marks.put mark slot } }
      s.loader.phase = .running ∧ s.link.role = .sender ∧ s.link.medium = .busy ∧ s.tx.copyFrom = some slot
        ∧ s.link.state = .engaged ∧ s.link.tec < 92 ∧ s.link.recCount < 96 ∧ s.tx.marks.get slot = mark
        ∧ s.adm.own = .runPending ∧ s.log.comp = none ∧ s.log.nextFragment + 1 < begun.fragmentCount) ∧
    (let s := copying .own 0 .engaged (pendingAll (.announce .claim 2757 8 [⟨2, 50⟩]) (claimed .claiming .claiming .claiming))
     s.adm.own = .claiming ∧ s.tx.own = some (.announce .claim 2757 8 [⟨2, 50⟩])) ∧
    (let s := copying .own 0 .engaged (pendingAll (.announce .wait 2757 30 [⟨2, 50⟩]) (claimed .waiting .waiting .waiting))
     s.adm.own = .waiting ∧ s.tx.own = some (.announce .wait 2757 30 [⟨2, 50⟩])) ∧
    (let s := copying .own 0 .engaged (pendingAll (.announce .run 2757 30 [⟨2, 50⟩]) running)
     s.adm.own = .running ∧ s.tx.own = some (.announce .run 2757 30 [⟨2, 50⟩])) ∧
    (let q := copying (.product 0) 0 .engaged (pendingAll (.release [2]) node)
     let s : State := { q with adm := { q.adm with holds := modAt q.adm.holds 0 fun _ => ⟨true, .stopped⟩ } }
     s.tx.product[(0 : Fin 4)] = some (.announce 30 3) ∧ (s.adm.holds[(0 : Fin 4)]).holding = true) ∧
    (lastFragment.log.queue = begun :: List.replicate 5 begun ∧ lastFragment.log.comp = some ⟨begun, true⟩
      ∧ begun.fragmentCount ≤ lastFragment.log.nextFragment + 1 ∧ lastFragment.seq.state = .closing
      ∧ (∀ j : Fin 4, lastFragment.seq.pendingSet[j] = none) ∧ lastFragment.link.tec < 92) ∧
    (let s := copying .stream 0 .engaged (pendingAll (.release [2]) { node with log := { node.log with nextFragment := 2 } })
     s.log.queue = begun :: [] ∧ ¬ s.log.nextFragment + 1 < begun.fragmentCount) ∧
    (∀ next ∈ [0, 1, 2],
      let q := running
      let s := copying .stream 91 .engaged { q with log := { q.log with queue := [begun, begun], nextFragment := next } }
      s.log.comp = some ⟨begun, false⟩ ∧ s.tx.marks.get .stream = false ∧ begun.fragmentCount = 3) ∧
    (∀ x ∈ [(80, LinkState.reticent), (81, .reticent), (92, .engaged), (95, .engaged)],
      let s := copying .own x.1 x.2 (pendingAll (.announce .claim 2757 8 [⟨2, 50⟩])
        (if x.2 = .engaged then claimed .claiming .claiming .claiming else claimed .waiting .waiting .waiting))
      s.link.role = .sender ∧ s.link.medium = .busy ∧ s.tx.copyFrom = some .own ∧ s.link.state = x.2 ∧ s.link.tec = x.1
        ∧ s.link.recCount = 0 ∧ s.adm.state = .active) ∧
    (∀ tec ∈ [91, 188, 191], let s := copying .own tec (if tec = 91 then .engaged else .reticent) (claimed .waiting .waiting .waiting)
      s.tx.copyFrom ≠ none ∧ s.onLine = true ∧ s.seq.state ≠ .running ∧ min (s.link.tec + 4) 255 ≠ s.link.tec) := by
  decide +kernel

/-- DETACHED, with the quiet timer at its end. -/
def detached (s : State) : State := { s with link := { s.link with state := .detached, quiet := .from 5000, tec := 192 } }
theorem witness_RejoinBeginsAfresh :
    ∀ st ∈ [RoundState.idle, .waiting, .running],
      let s := detached (round st 2 0)
      let w := detached (claimed .none .waiting .waiting)
      w.adm.standing = some ⟨[⟨2, 50⟩], 1⟩ ∧ w.link.quiet.on = true ∧ w.link.state = .detached ∧ w.seq.state = .waiting
        ∧ 5000 ≤ s.link.quiet.ms ∧ node.link.quiet.ms < 5000 ∧ s.adm.standing = none ∧ s.link.quiet.on = true ∧ s.link.state = .detached ∧ s.seq.state ≠ .claiming
        ∧ (s.seq.state = .running → s.tagCurrent = false) := by decide +kernel

/-! ### What meets the hypotheses on numbers, images and choices -/

theorem witness_ConductivityCompensatedTo25Degrees :
    compensationDivisor 30 1500 = 47500 ∧ compensationDivisor 30 0 = 2500 ∧ kappa25Of 30 0 65535 = 65535
      ∧ kappa25Of 30 0 16383 = 65532 ∧ kappa25Of 0 0 65535 = 65535
      ∧ (compute (some causticSet) (full 752 182 9750)).kappa25 = some 4990 := by decide +kernel
theorem witness_ConcentrationFromSlope :
    concOf 1000 65535 = 9999 ∧ concOf 1 9998 = 10 ∧ concOf 1 499 = 0 ∧ concOf 1 500 = 1
      ∧ (compute (some causticSet) (full 752 182 9750)).conc = some 100 := by decide +kernel
theorem witness_WeightOfInBandSample :
    inBand caustic (compute (some causticSet) (full 700 182 9113)) = true
      ∧ inBand { caustic with span := 0 } (compute (some causticSet) (full 752 182 9750)) = true
      ∧ inBand caustic (compute (some causticSet) (full 699 182 9750)) = false ∧ caustic.timed = false := by decide +kernel

/-- What another station receives when an own copy arrives. -/
def arrived (low : BitVec 12) (c : OwnCopy) : RxFrame := ⟨low, c.payload, frameCheck c.word c.payload, ⟨true, false, false⟩, true⟩
theorem witness_OwnFramesReadAsSent :
    (let c := (OwnFrame.announce .claim 2757 8 [⟨2, 50⟩, ⟨0, 255⟩, ⟨15, 0⟩]).frame 5
     2757 ≤ 4095 ∧ 2757 % 64 = 5 ∧ arbWord 3 (arrived 2757 c).low.toNat = c.word
        ∧ (arrived 2757 c).check = frameCheck c.word (arrived 2757 c).payload) ∧
    arbWord 3 (5 : BitVec 12).toNat = ((ProdFrame.announce 30 3).frame 5).word ∧
    arbWord 2 (5 : BitVec 12).toNat = ((OwnFrame.release [2, 15]).frame 5).word ∧
    arbWord 2 (63 : BitVec 12).toNat = ((ProdFrame.release 3).frame 63).word := by decide +kernel
theorem witness_StatusBytesCarryTheirFields :
    let s : State := fullQueue .dropOldest { running with ver := { running.ver with credit := 1920 } }
    s.seq.repeats ≤ 16 ∧ s.adm.urgency ≤ 62 ∧ s.link.tec ≤ 255 ∧ s.link.recCount ≤ 255 ∧ s.log.queue.length ≤ 6
      ∧ s.log.dropped ≤ 255 ∧ s.ver.credit ≤ s.ver.required := by decide +kernel
theorem witness_RecordFragmentsCarryTheImage :
    let x := Verifier.start.result 0 .cut
    1 ≤ ({ begun with results := [x] } : Record).results.length
      ∧ ({ begun with results := List.replicate 32 x } : Record).results.length ≤ 32 := by decide +kernel
/-- The load and the reasons that the statement names. -/
def loadOf (b : Board) (r : Res) (own : Entry) : Nat :=
  (((b.lists[r]).filter fun e => decide (e.own = false ∧ e.role = .cip
    ∧ (e.state = .running ∨ (e.state = .claiming ∨ e.state = .waiting) ∧ e.key < own.key))).map fun e => e.demand.getD 0).sum
def failsWith (capacity : Vector Nat 16) (b : Board) (r : Res) (own : Entry) : Fit → Prop
  | .inhibited => b.inhibit[r] = true
  | .incomplete => b.inhibit[r] = false ∧ b.incomplete[r] = true
  | .product => b.inhibit[r] = false ∧ b.incomplete[r] = false ∧ ∃ e ∈ b.lists[r], e.state = .held
  | .full => b.inhibit[r] = false ∧ b.incomplete[r] = false ∧ (∀ e ∈ b.lists[r], e.state ≠ .held)
      ∧ capacity[r] < loadOf b r own + own.demand.getD 0
  | .pass => False
  | .empty => False
theorem failsWith_meets (capacity : Vector Nat 16) (b : Board) (r : Res) (own : Entry) :
    (failsWith capacity b r own .inhibited ↔ b.inhibit[r] = true) ∧
    (failsWith capacity b r own .incomplete ↔ b.inhibit[r] = false ∧ b.incomplete[r] = true) ∧
    (failsWith capacity b r own .product ↔ b.inhibit[r] = false ∧ b.incomplete[r] = false ∧ ∃ e ∈ b.lists[r], e.state = .held) ∧
    (failsWith capacity b r own .full ↔ b.inhibit[r] = false ∧ b.incomplete[r] = false
      ∧ (∀ e ∈ b.lists[r], e.state ≠ .held) ∧ capacity[r] < loadOf b r own + own.demand.getD 0) ∧
    ¬ failsWith capacity b r own .pass ∧ ¬ failsWith capacity b r own .empty :=
  ⟨.rfl, .rfl, .rfl, .rfl, id, id⟩
/-- Each failing reason, and a pass. -/
theorem witness_FitTestOutcome :
    fitTest cfg.capacity running.board = .pass ∧ fitTest cfg.capacity inhibited.board = .empty
      ∧ fitTest cfg.capacity { running.board with inhibit := Vector.replicate 16 true } = .inhibited
      ∧ fitTest cfg.capacity { running.board with incomplete := Vector.replicate 16 true } = .incomplete
      ∧ fitTest (Vector.replicate 16 79) running.board = .full
      ∧ fitTest cfg.capacity (board [⟨1, 9, .product, none, 9, .held, some ⟨40, 0⟩, false⟩, ownEntry .running] []) = .product := by
  decide +kernel
/-- An own entry that runs on resource 2, shed where 50 exceeds the capacity. -/
theorem witness_VerdictOnRunningResources :
    running.board.findOwn 2 .cip = some (ownEntry .running) ∧ (ownEntry .running).state = .running
      ∧ verdictFor cfg.capacity running.board [2] = none ∧ verdictFor (Vector.replicate 16 49) running.board [2] = some .shed := by
  decide +kernel

/-- The head of an image whose slot 0 holds one step that claims 50 of resource 2; the rest reads as bytes of 255. -/
def smallImage : List Byte :=
  [0x3E, 0x91, 0x0A, 0x4F, 5, 1, 0, 2, 4, 0, 60, 1, 3, 30, 10, 0, 1, 0] ++ List.replicate 16 100 ++ [3, 255, 255, 255, 8, 0, 255]
    ++ [19, 0, 20, 0, 80, 0, 40] ++ List.replicate 21 0
    ++ [1, 20, 1, 2, 50, 0, 0, 0, 0, 0, 1, 0, 2, 0, 2, 188, 0, 100, 0, 80, 0, 150, 0, 150, 0, 60, 2, 1, 144, 1, 0, 0, 2, 0]
theorem witness_UsableRecipesInRange :
    let slot := (loadImage smallImage).store.slots[(0 : Fin 4)]
    slot.usable = true ∧ slot.finalIndex = 0 ∧ (slot.steps[(0 : Fin 20)]).convSet = .set 0
      ∧ (slot.steps[(0 : Fin 20)]).claims = [⟨2, 50⟩] := by decide +kernel

/-- The same with a second step that claims 40 of resource 2, its CHAIN flag and the first step's LAST flag as given. -/
def twoSteps (last chain demand : Byte) : List Byte :=
  (smallImage.set 69 2).take 102 ++ [last, 1, 2, demand] ++ List.replicate 8 0 ++ [255] ++ List.replicate 10 0 ++ [0, 60, 0, 1, 144, 1]
    ++ [0, 0, 0, chain]
/-- In use and not; a valid CHAIN and one of a larger demand; a faulty step behind the final index, and in use. -/
theorem witness_UsableRecipesInRange_chain :
    (∀ x ∈ [(40, true), (50, true), (51, false)],
      let slot := (loadImage (twoSteps 0 8 x.1)).store.slots[(0 : Fin 4)]
      slot.usable = true ∧ slot.finalIndex = 1 ∧ (slot.steps[(1 : Fin 20)]).chain = x.2
        ∧ stepByte (twoSteps 0 8 x.1) 0 1 31 / 8 % 2 = 1 ∧ (loadImage (twoSteps 0 8 x.1)).chainIgnored = !x.2) ∧
    (let slot := (loadImage (twoSteps 1 8 101)).store.slots[(0 : Fin 4)]
     slot.usable = true ∧ slot.finalIndex = 0) ∧
    ((loadImage (twoSteps 0 8 101)).store.slots[(0 : Fin 4)]).usable = false := by decide +kernel
theorem witness_UsableRecipesInRange_inUse :
    StepInUse (twoSteps 0 8 40) 0 1 ∧ ¬ StepInUse (twoSteps 1 8 40) 0 1 ∧ StepInUse (twoSteps 1 8 40) 0 0 ∧
    StepFaulty (twoSteps 0 8 101) (loadImage smallImage).settings 0 1 ∧
    ¬ StepFaulty (twoSteps 0 8 100) (loadImage smallImage).settings 0 1 := by
  unfold StepInUse StepFaulty
  dsimp only
  refine ⟨?_, ?_, ?_, ?_, ?_⟩ <;> decide +kernel

/-- An own RELEASE and a product RELEASE have equal words; an own WAIT ranks behind a product announcement. -/
theorem witness_ClassALowestWordFirst :
    (∀ x ∈ [OwnFrame.release [2], .announce .wait 2757 30 [⟨2, 50⟩]], ∀ y ∈ [ProdFrame.release 3, .announce 30 3],
      let s : State := { node with tx := { node.tx with own := some x, product := (Vector.replicate 4 none).set 1 (some y) } }
      s.tx.own.isSome = true ∧ s.settings.node ≤ 63 ∧ 65 ≤ 2757 ∧ 2757 ≤ 4095) ∧
    (let s : State := { node with tx := { node.tx with own := some (.release [2]), product := (Vector.replicate 4 none).set 1 (some (.release 3)) } }
     s.choose.map (·.slot) = some .own) := by decide +kernel
theorem witness_RoundRobinServesBothClasses :
    (∀ turn ∈ [Turn.b, .c], ∀ count ∈ [0, 1, 2],
      let s : State := { fullQueue .dropOldest node with tx := { node.tx with status := some [], turn := turn, turnCount := count } }
      s.classA = [] ∧ s.choose.isSome = true) ∧
    node.classA = [] ∧ node.choose = none := by decide +kernel

/-! ### Single steps -/

/-- R125: a level that returns stops the stability timer. -/
theorem test_level_returns :
    let s := after (exec (.inputLevelChange .stop true) node)
    s.port.stop = ⟨true, false, .from 0⟩ ∧ (after (exec (.inputLevelChange .stop false) s)).port.stop = .quiet := by
  decide +kernel
/-- R120: the first request carries number 0. -/
theorem test_first_sample_request :
    (after (exec .samplePeriodExpiry node)).port.request = some (0x5A, 0) := by decide +kernel
/-- Section 6.3: the third exchange without a valid reply makes the front-end silent, at a limit of 3. -/
theorem test_third_absence_is_silent :
    let s := awaiting { node with port := { node.port with absent := 2 } }
    (after (exec .replyTimeout s)).port.silent = true ∧ (after (exec .replyTimeout s)).flag .frontendSilent = true
      ∧ (after (exec .replyTimeout s)).port.indicators.fault = true := by decide +kernel
/-- R10 to R12: a WAIT announced over an entry changes it in place and keeps its number. -/
theorem test_announcement_updates_entry :
    let s := withOp (.announce ⟨9, 1289, .running, 30, [⟨2, 40⟩]⟩) running
    ((after (exec .applyAnnouncementCip s)).board.lists[(2 : Res)]).map (fun e => (e.num, e.demand, e.state))
      = [(1, some 40, .running), (0, some 50, .running)] := by decide +kernel
/-- R30: the better-keyed runner leaves no room, and the own run is shed (R46). -/
theorem test_announcement_sheds_own_run :
    let s := withOp (.announce ⟨9, 1289, .running, 30, [⟨2, 60⟩]⟩) running
    (after (exec .applyAnnouncementCip s)).flag .shed = true
      ∧ (after (exec .applyAnnouncementCip s)).seq.state ≠ .running := by decide +kernel
/-- R34, R45: the round answers the stop cause, with a STATUS at its new state, before SHED is set. -/
theorem test_stop_is_reported_first :
    let t := after (exec .applyAnnouncementCip (withOp (.announce ⟨9, 1289, .running, 30, [⟨2, 60⟩]⟩) running))
    t.flag .shed = true ∧ t.tx.status.isSome = true ∧ t.log.carried.getLsbD Sticky.shed.index = false := by decide +kernel
/-- The running node with its step marked HOLD. -/
def heldRun : State :=
  { running with store := { running.store with slots := modAt running.store.slots 0 fun r =>
      { r with steps := modAt r.steps 0 fun st => { st with hold := true } } } }
/-- R76, R77: a shed HOLD step waits for CONFIRM and keeps no request that a rejoin could take. -/
theorem test_shed_hold_step_holds_no_share :
    let t := after (exec .applyAnnouncementCip (withOp (.announce ⟨9, 1289, .running, 30, [⟨2, 60⟩]⟩) heldRun))
    t.seq.state = .holdWait ∧ t.adm.standing = none ∧ t.adm.own = .none
      ∧ (after (exec .rejoin (detached t))).adm.own = .none := by decide +kernel
/-- R53: a product hold of resource 2 by a peer stops the own run there: the round is suspended with ROUTE_TAKEN. -/
theorem test_product_takes_route :
    let s := withOp (.announce ⟨9, 9, .held, 30, [⟨2, 255⟩]⟩) running
    (after (exec .applyAnnouncementProduct s)).seq.lastCause = some .routeTaken
      ∧ (after (exec .applyAnnouncementProduct s)).seq.state = .suspended := by decide +kernel
/-- R15: the expiry of a due entry frees it at the tail of the free list, and an entry with life left stays. -/
theorem test_entry_expires :
    (after (exec (.entryExpiry 1) (withDue node))).board.free.getLast? = some 1
      ∧ (after (exec (.entryExpiry 1) running)).board = running.board := by decide +kernel
/-- R27: key 64 × (63 − urgency) + node. -/
theorem test_own_key : running.ownKey = 2757 := by decide +kernel
/-- R28: aging gives a better key. -/
theorem test_aging_betters_key :
    (after (exec .agingExpiry (aged 20))).ownKey = 2693 := by decide +kernel
/-- R76, R35: a request begins a round at a claimed step, which waits. -/
theorem test_request_begins_round :
    let t := after (exec (.reqRisingEdge 0) (reqUp 0 node))
    t.seq.state = .waiting ∧ t.seq.roundNumber = 1 ∧ t.adm.own = .waiting ∧ t.port.indicators.round = true := by
  decide +kernel
/-- R77, R87: CONFIRM starts a held step that claims nothing, and its active pattern is driven. -/
theorem test_confirm_starts_step :
    (after (exec .confirmRisingEdge (confirmUp (round .holdWait 1 0)))).seq.state = .running := by decide +kernel
/-- R87: the active pattern in BURST, the pause pattern in PAUSE, the rest pattern otherwise. -/
theorem test_patterns :
    (after (exec .uptimeTick running)).port.outputs = 1
      ∧ (after (exec (.sampleReply (reply 7 200 15)) (lastSample 0 0 2))).port.outputs = 2
      ∧ (after (exec .uptimeTick node)).port.outputs = 0x800 := by decide +kernel
/-- R91: the suspend limit ends the round ABANDONED. -/
theorem test_suspend_limit :
    ((after (exec .suspendTimerExpiry (round .suspended 0 0))).log.queue).map (·.outcome) = [.abandoned] := by decide +kernel
/-- R93: STOP ends the round and empties the pending set. -/
theorem test_stop_ends_round :
    let t := after (exec .stopChange (stopMoved true running))
    t.seq.state = .idle ∧ t.port.outputs = 0x800 ∧ t.adm.own = .none := by decide +kernel
/-- R138, R142: a frame with a wrong check is answered REJECT and raises REC. -/
theorem test_check_failure :
    let t := after (exec .receivedFrameCheckFailed (receiving node))
    t.link.answer = some .reject ∧ t.link.recCount = 1 := by decide +kernel
/-- R8: an ANNOUNCE heard is one operation at the tail. -/
theorem test_announce_heard :
    (after (exec (.announce claimFrame) (receiving node))).updates.ops = [.announce ⟨9, 1289, .claiming, 40, [⟨2, 30⟩]⟩] := by
  decide +kernel
/-- R9: the twelfth operation begins hold-off. -/
theorem test_hold_off_begins :
    let t := after (exec (.inhibit (rx 0 60 [0, 4])) listening)
    t.updates.holdOff = true ∧ t.flag .holdoffAsserted = true := by decide +kernel
/-- R148: a frame under this node's own number bars it. -/
theorem test_twin_bars : (after (exec (.status (twin 5)) (receiving node))).link.state = .barred := by decide +kernel
/-- R41, R81: the RUN's delivery makes the own step RUNNING; the round follows when its own update completes. -/
theorem test_run_delivered :
    let s := copying .own 0 .engaged (pendingAll (.announce .run 2757 30 [⟨2, 50⟩]) (claimed .runPending .claiming .claiming))
    let t := after (exec (.ownFrameEnd ⟨true, false, false⟩) s)
    t.adm.own = .running ∧ t.seq.state = .claiming ∧ (after (exec .ownUpdate t)).seq.state = .running := by decide +kernel
/-- R143: four more errors at 188 detach the node. -/
theorem test_detaches_at_192 :
    (after (exec .frameAbandon (copying .own 188 .reticent node))).link.state = .detached := by decide +kernel
/-- R146: a check failure taken first sets the quiet timer back, and the node stays DETACHED. -/
theorem test_failure_before_rejoin :
    let s := after (exec .receivedFrameCheckFailed (receiving (detached node)))
    s.link.quiet = .from 0 ∧ (after (exec .rejoin s)).link.state = .detached := by decide +kernel
/-- R44: a RUN delivered first restarts the guard, and the run continues. -/
theorem test_delivery_before_guard :
    let s := after (exec (.ownFrameEnd ⟨true, false, false⟩)
      (copying .own 0 .engaged (pendingAll (.announce .run 2757 30 [⟨2, 50⟩]) running)))
    (after (exec .guardExpiry s)).adm.own = .running ∧ (after (exec .guardExpiry running)).adm.own = .none := by decide +kernel
/-- R50, R52: a rejoin begins LEARNING with the standing request waiting. -/
theorem test_rejoin_learns :
    (after (exec .rejoin (detached node))).adm.state = .learning := by decide +kernel
/-- R28, R31: a waiting step is evaluated when the learning time ends. -/
theorem test_learning_ends :
    let s := claimed .waiting .waiting .waiting
    let t := after (exec .learningExpiry { s with adm := { s.adm with state := .learning, learning := .from 8000 } })
    t.adm.state = .active ∧ t.updates.ops = [.evaluate] := by decide +kernel
/-- R190: an image without its mark ends in CONFIG_FAULT, lamp on. -/
theorem test_image_without_mark :
    let t := after (exec (.imageReadEnd []) { State.reset with loader := ⟨.reading, .none, [], 0, 0⟩ })
    t.loader.phase = .configFault ∧ t.port.indicators = ⟨false, false, true, false⟩ := by decide +kernel

end Sys2Proof.Tests
end

section
/-! What the operations of the round, the admission unit and the product holds do to the update queue: they leave it alone or place
own operations, one after the other (R33). The relation is proved once for each operation. -/

namespace Sys2Proof.Machine

/-! ### The relation -/

/-- A setting event leaves every other flag as it was (R173). -/
theorem Log.isSet_setFlag (l : Log) (f g : Sticky) : (l.setFlag f).isSet g = (l.isSet g || decide (f = g)) := by
  have hi : ∀ f : Sticky, f.index < 16 := fun f => by cases f <;> decide
  have inj : g.index = f.index ↔ f = g := by cases f <;> cases g <;> decide
  simp [Log.setFlag, Log.isSet, Sticky.mask, hi, inj]

/-- An own operation with the key that the node has now (R27, R53). -/
structure State.Current (s : State) (op : Op) : Prop where
  own : op.isOwn = true
  fits : s.adm.urgency ≤ 62 → 1 ≤ s.settings.node → s.settings.node ≤ 63 → op.Fits s.settings.node

/-- Nothing that the update queue's bounds or the board's ranking rest on changes; flags are at most set, OVERCOMMIT not. -/
structure Quiet (s t : State) : Prop where
  fixed : t.fixed = s.fixed
  link : t.link = s.link
  updates : t.updates = s.updates
  outstanding : t.adm.outstanding = s.adm.outstanding
  waiting : t.adm.waiting = s.adm.waiting
  urgency : s.adm.urgency ≤ 62 → (∀ i : Fin 4, (s.store.slots[i]).baseUrgency ≤ 62) → t.adm.urgency ≤ 62
  flags : ∀ f : Sticky, s.flag f = true → t.flag f = true
  overcommit : t.flag .overcommit = s.flag .overcommit

/-- Own operations are placed, one after the other, between quiet changes. -/
inductive Placing : State → State → Prop where
  | quiet {s t : State} (h : Quiet s t) : Placing s t
  | place {s : State} {op : Op} (h : s.Current op) : Placing s (s.placeOp op)
  | trans {s t u : State} (h : Placing s t) (k : Placing t u) : Placing s u

theorem Quiet.refl (s : State) : Quiet s s := ⟨rfl, rfl, rfl, rfl, rfl, fun h _ => h, fun _ h => h, rfl⟩
theorem Placing.refl (s : State) : Placing s s := .quiet (.refl s)

/-! ### Single changes -/

section
variable {s t : State} (h : Placing s t)
include h

theorem Placing.onSeq (f) : Placing s (t.onSeq f) := h.trans (.quiet ⟨rfl, rfl, rfl, rfl, rfl, fun k _ => k, fun _ k => k, rfl⟩)
theorem Placing.onVer (f) : Placing s (t.onVer f) := h.trans (.quiet ⟨rfl, rfl, rfl, rfl, rfl, fun k _ => k, fun _ k => k, rfl⟩)
theorem Placing.onTx (f) : Placing s (t.onTx f) := h.trans (.quiet ⟨rfl, rfl, rfl, rfl, rfl, fun k _ => k, fun _ k => k, rfl⟩)
theorem Placing.onAdm (f : Admission → Admission) (h1 : (f t.adm).outstanding = t.adm.outstanding)
    (h2 : (f t.adm).waiting = t.adm.waiting) (h3 : (f t.adm).urgency = t.adm.urgency) : Placing s (t.onAdm f) :=
  h.trans (.quiet ⟨rfl, rfl, rfl, h1, h2, fun k _ => by simpa [h3] using k, fun _ k => k, rfl⟩)
theorem Placing.onLog (f : Log → Log) (h1 : (f t.log).flags = t.log.flags) : Placing s (t.onLog f) :=
  h.trans (.quiet ⟨rfl, rfl, rfl, rfl, rfl, fun k _ => k, fun _ k => by simpa [State.flag, Log.isSet, h1] using k,
    by simp [State.flag, Log.isSet, h1]⟩)
theorem Placing.enter (o) : Placing s (t.onAdm (Admission.enter o)) := h.onAdm _ rfl rfl rfl
theorem Placing.sticky (f) (hf : f ≠ .overcommit) : Placing s (t.sticky f) :=
  h.trans (.quiet ⟨rfl, rfl, rfl, rfl, rfl, fun k _ => k,
    fun g k => by simp only [State.flag, State.sticky, State.onLog_log, Log.isSet_setFlag] at k ⊢; simp [k],
    by simp [State.flag, State.sticky, Log.isSet_setFlag, hf]⟩)
theorem Placing.stickyIf (c f) (hf : f ≠ .overcommit) : Placing s (t.stickyIf c f) := by
  unfold State.stickyIf; split <;> [exact h.sticky f hf; exact h]
theorem Placing.placeOp {op} (k : t.Current op) : Placing s (t.placeOp op) := h.trans (.place k)
theorem Placing.placeOwn (c) : Placing s (t.placeOwn c) := h.onTx _
theorem Placing.placeProduct (i c) : Placing s (t.placeProduct i c) := h.onTx _
theorem Placing.makeStatus : Placing s t.makeStatus := (h.onTx _).onLog _ rfl
theorem Placing.setRound (r) : Placing s (t.setRound r) := by
  unfold State.setRound; split <;> [exact h; exact (h.onSeq _).makeStatus]
end

/-! ### What is placed carries the node's key -/

section
variable (s : State)

theorem State.current_ownRemove (role rs) : s.Current (.ownRemove role rs) := ⟨rfl, fun _ _ _ => trivial⟩
theorem State.current_evaluate : s.Current .evaluate := ⟨rfl, fun _ _ _ => trivial⟩

/-- The node's key for its CIP entries lies in the range of R2 and names the node (R27). -/
theorem State.ownFits_ownKey {st : EntryState} (hst : st ≠ .held) (hu : s.adm.urgency ≤ 62) (h1 : 1 ≤ s.settings.node)
    (h2 : s.settings.node ≤ 63) : ownFits s.settings.node .cip s.ownKey st := by
  refine ⟨?_, ?_, ?_, hst⟩ <;> simp only [State.ownKey] <;> omega

theorem State.current_ownInsert {st : EntryState} (hst : st ≠ .held) (pairs) :
    s.Current (.ownInsert .cip pairs s.ownKey st) := ⟨rfl, s.ownFits_ownKey hst⟩
theorem State.current_ownUpdate {st : EntryState} (hst : st ≠ .held) (pairs) :
    s.Current (.ownUpdate .cip pairs s.ownKey st) := ⟨rfl, s.ownFits_ownKey hst⟩
theorem State.current_holdInsert (pairs) : s.Current (.ownInsert .product pairs s.settings.node .held) :=
  ⟨rfl, fun _ _ _ => ⟨rfl, rfl⟩⟩
end

/-! ### Records and requests -/

section
variable {s t : State} (h : Placing s t)
include h

theorem Placing.beginRecord : Placing s t.beginRecord := h.onLog _ rfl
theorem Placing.handResult (x) : Placing s (t.handResult x) := h.onLog _ rfl
theorem Placing.completeRecord (o) : Placing s (t.completeRecord o) := h.onLog _ rfl
theorem Placing.takeRecord : Placing s t.takeRecord := by
  unfold State.takeRecord
  split
  · exact h
  split
  · exact h.onLog _ rfl
  split
  · exact ((h.onTx _).onLog _ rfl).sticky _ (by decide)
  · exact h

theorem Placing.requestEval (b) : Placing s (t.requestEval b) := by
  rcases t.requestEval_cases b with ⟨-, e⟩ | ⟨-, -, e⟩ | ⟨-, -, e⟩ <;> rw [e]
  · exact h
  · exact (h.onAdm _ rfl rfl rfl).placeOp (State.current_evaluate _)
  · exact h.onAdm _ rfl rfl rfl
theorem Placing.enterRunning : Placing s t.enterRunning := ((h.onSeq _).onVer _).setRound _
theorem Placing.restartAttempt : Placing s t.restartAttempt := ((h.onSeq _).onVer _).setRound _
theorem Placing.reportWaiting : Placing s t.reportWaiting := by
  unfold State.reportWaiting
  split
  · split <;> [exact h.setRound _; exact h.restartAttempt; exact h]
  · exact h
theorem Placing.reportClaiming : Placing s t.reportClaiming := by
  unfold State.reportClaiming
  split
  · split <;> [exact h.setRound _; exact h]
  · exact h
theorem Placing.reportRunning : Placing s t.reportRunning := by
  unfold State.reportRunning
  split
  · split <;> [exact h.enterRunning; exact h.enterRunning; exact h]
  · exact h
theorem Placing.placeAnnounce (st l) : Placing s (t.placeAnnounce st l) := (h.placeOwn _).onAdm _ rfl rfl rfl
theorem Placing.releaseRequest : Placing s t.releaseRequest := by
  unfold State.releaseRequest
  split
  · exact h
  rename_i st _
  dsimp only
  have withdrawn := h.onAdm (fun a => { a with standing := none, framePlaced := false }) rfl rfl rfl
  split
  · exact withdrawn
  have removed := (withdrawn.placeOp (State.current_ownRemove _ .cip (resourcesOf st.pairs))).enter .none
  split
  · exact removed.placeOwn _
  · exact removed

/-- An own admission request sets the urgency to the base of the recipe (R28). -/
theorem Placing.based (f : Admission → Admission) (h1 : (f t.adm).outstanding = t.adm.outstanding)
    (h2 : (f t.adm).waiting = t.adm.waiting) (h3 : ∃ i : Fin 4, (f t.adm).urgency = (t.store.slots[i]).baseUrgency) :
    Placing s (t.onAdm f) := by
  obtain ⟨i, hi⟩ := h3
  exact h.trans (.quiet ⟨rfl, rfl, rfl, h1, h2, fun _ k => by simpa [hi] using k i, fun _ k => k, rfl⟩)
theorem Placing.receiveRequest (p g) : Placing s (t.receiveRequest p g) := by
  unfold State.receiveRequest
  dsimp only
  have base (u : State) (hu : Placing s u) (hf : u.fixed = t.fixed) : Placing s (u.onAdm fun a =>
      { a with standing := some ⟨p, g⟩, framePlaced := false, urgency := t.baseUrgency, aging := 0 }) :=
    hu.based _ rfl rfl ⟨t.seq.slot, by rw [(State.fixed_eq hf).2.2.1]; rfl⟩
  split
  · exact base t h rfl
  · exact base _ h.releaseRequest (by simp)
theorem Placing.takeRequest : Placing s t.takeRequest := by
  unfold State.takeRequest
  split
  · exact h
  split
  · exact (((h.placeOp (t.current_ownInsert (by decide) _)).enter _).reportWaiting).requestEval _
  · exact h
theorem Placing.chainRequest (p g) : Placing s (t.chainRequest p g) := by
  unfold State.chainRequest
  split
  · have based : Placing s (t.onAdm fun a => { a with standing := some ⟨p, g⟩, urgency := t.baseUrgency, aging := 0 }) :=
      h.based _ rfl rfl ⟨t.seq.slot, rfl⟩
    exact ((based.placeOp (State.current_ownUpdate _ (by decide) _)).placeAnnounce _ _).reportRunning
  · exact (h.receiveRequest _ _).takeRequest
end

/-! ### Rounds -/

section
variable {s t : State} (h : Placing s t)
include h

theorem Placing.openAttempt (i) : Placing s (t.openAttempt i) := ((h.onSeq _).onSeq _).onVer _
theorem Placing.proceed : Placing s t.proceed := by
  unfold State.proceed; split <;> [exact h.enterRunning; exact ((h.receiveRequest _ _).setRound _).takeRequest]
theorem Placing.enterStep (i c) : Placing s (t.enterStep i c) := by
  unfold State.enterStep
  dsimp only
  split <;> [exact (h.openAttempt _).setRound _; exact (h.openAttempt _).proceed]
theorem Placing.enterChained (i) : Placing s (t.enterChained i) :=
  (((h.openAttempt _).onSeq _).onVer _).chainRequest _ _
theorem Placing.endAttempt (o) : Placing s (t.endAttempt o) := by
  unfold State.endAttempt; split <;> [exact ((h.onVer _).handResult _).onSeq _; exact h]
theorem Placing.releaseIfClaims : Placing s t.releaseIfClaims := by
  unfold State.releaseIfClaims; split <;> [exact h; exact h.releaseRequest]
theorem Placing.takePending : Placing s t.takePending := by
  unfold State.takePending
  split
  · split <;> [exact h; exact (((h.onSeq _).beginRecord).onVer _).enterStep _ _]
  · exact h
theorem Placing.roundRequest (i e) : Placing s (t.roundRequest i e) := by
  unfold State.roundRequest; split <;> [exact h.sticky _ (by decide); exact (h.onSeq _).takePending]
theorem Placing.recordTaken : Placing s t.recordTaken := by
  unfold State.recordTaken; split <;> [exact (h.setRound _).takePending; exact h]
theorem Placing.closeRound (o) : Placing s (t.closeRound o) :=
  (((((h.releaseIfClaims.onSeq _).onVer _).completeRecord _).setRound _).takeRecord).recordTaken
theorem Placing.cutRound (o) : Placing s (t.cutRound o) := by
  unfold State.cutRound; split <;> [exact (h.endAttempt _).closeRound _; exact h]
theorem Placing.haltAttempt (o) : Placing s (t.haltAttempt o) := (h.endAttempt _).onSeq _
theorem Placing.enterSuspended (c) : Placing s (t.enterSuspended c) := (h.onSeq _).setRound _
theorem Placing.suspend (c) : Placing s (t.suspend c) := ((h.haltAttempt _).releaseIfClaims).enterSuspended _
theorem Placing.resumeRound (b) : Placing s (t.resumeRound b) := by
  unfold State.resumeRound; split <;> [exact (h.onSeq _).enterStep _ _; exact h]
theorem Placing.attemptDone : Placing s t.attemptDone := by
  unfold State.attemptDone
  dsimp only
  have ended := ((h.endAttempt .done).stickyIf t.curStep.mark .stepMark (by decide)).onSeq
    fun q => { q with stepTimer := .stopped }
  split
  · exact ended.closeRound _
  split
  · exact ended.enterChained _
  · exact ended.releaseIfClaims.enterStep _ _
theorem Placing.burstComplete : Placing s t.burstComplete := by
  unfold State.burstComplete
  split
  · split
    · dsimp only
      split <;> [exact ((h.onSeq _).onSeq _).onVer _; exact (h.onSeq _).onVer _]
    · exact (h.onVer _).attemptDone
  · exact h
theorem Placing.sensorLostReport : Placing s t.sensorLostReport := by
  unfold State.sensorLostReport; split <;> [exact h.suspend _; exact h]
theorem Placing.standAgain : Placing s t.standAgain := by
  unfold State.standAgain
  split
  · exact h.setRound _
  split
  · exact h.enterRunning
  · exact h.setRound _
theorem Placing.stopReported (a) : Placing s (t.stopReported a) := by
  unfold State.stopReported
  split
  · exact h
  · exact h.setRound _
  · exact (h.haltAttempt _).enterSuspended _
  · exact ((h.haltAttempt _).openAttempt _).standAgain
theorem Placing.stopAnswered (a) : Placing s (t.stopAnswered a) := by
  unfold State.stopAnswered
  split
  · exact h
  · exact h
  · exact h.releaseIfClaims
  · split <;> [exact h.releaseRequest; exact (h.receiveRequest _ _).takeRequest]
theorem Placing.seqDetached : Placing s t.seqDetached := by
  unfold State.seqDetached
  split
  · exact h.setRound _
  · split <;> [exact h; exact h.suspend _]
  · exact h
theorem Placing.seqBarred : Placing s t.seqBarred := by
  unfold State.seqBarred
  dsimp only
  split
  all_goals first | exact (h.onSeq _).suspend _ | exact h.onSeq _
end

/-! ### The admission unit -/

section
variable {s t : State} (h : Placing s t)
include h

theorem Placing.updateOwn (st) (hst : st ≠ .held) : Placing s (t.updateOwn st) := h.placeOp (t.current_ownUpdate hst _)
theorem Placing.claim : Placing s t.claim :=
  (((h.updateOwn _ (by decide)).placeAnnounce _ _).enter _).reportClaiming
theorem Placing.stayWaiting : Placing s t.stayWaiting := by
  unfold State.stayWaiting; split <;> [exact h; exact h.placeAnnounce _ _]
theorem Placing.yieldStep : Placing s t.yieldStep :=
  (((h.updateOwn _ (by decide)).placeAnnounce _ _).enter _).reportWaiting
theorem Placing.runPending : Placing s t.runPending := ((h.placeAnnounce _ _).enter _).reportClaiming
theorem Placing.grant : Placing s t.grant := ((h.updateOwn _ (by decide)).enter _).onAdm _ rfl rfl rfl
theorem Placing.stopRun (c) : Placing s (t.stopRun c) :=
  (((((h.stopReported _).stickyIf _ _ (by decide)).placeOp (State.current_ownRemove _ .cip _)).enter _).placeOwn _).stopAnswered _
theorem Placing.actVerdict (v) : Placing s (t.actVerdict v) := by
  unfold State.actVerdict
  split
  · split <;> [exact h.stopRun _; exact h]
  · exact h
theorem Placing.notice (l) : Placing s (t.notice l) := by
  unfold State.notice; split <;> [exact h.requestEval _; exact h]
theorem Placing.hallResult (l) : Placing s (t.hallResult l) := (h.notice _).actVerdict _
theorem Placing.actOutcome (o b) : Placing s (t.actOutcome o b) := by
  unfold State.actOutcome
  split
  · exact h
  · exact h
  · split <;> [exact h.claim; exact h.stayWaiting]
  · split
    · split <;> [exact h.runPending; exact h]
    · exact h.yieldStep
  · split <;> [exact h; exact h.yieldStep]
theorem Placing.requestWanted : Placing s t.requestWanted := by
  unfold State.requestWanted; split <;> [exact (h.onAdm _ rfl rfl rfl).requestEval _; exact h]
theorem Placing.ownDelivered (c) : Placing s (t.ownDelivered c) := by
  unfold State.ownDelivered
  have kept := h.onAdm (fun a => { a with last := some c }) rfl rfl rfl
  dsimp only
  split
  · exact kept.onAdm _ rfl rfl rfl
  · exact kept.grant
  · exact kept.onAdm _ rfl rfl rfl
  · exact kept.onAdm _ rfl rfl rfl
  · exact kept
theorem Placing.productDelivered (i c) : Placing s (t.productDelivered i c) := by
  unfold State.productDelivered; split <;> [exact h.onAdm _ rfl rfl rfl; exact h]
theorem Placing.judgeHold (i) : Placing s (t.judgeHold i) := by
  unfold State.judgeHold
  split
  · exact h
  split
  · split
    · exact ((h.placeOp (t.current_holdInsert _)).onAdm _ rfl rfl rfl).placeProduct _ _
    split
    · exact ((h.placeOp (t.current_ownRemove _ _)).onAdm _ rfl rfl rfl).placeProduct _ _
    · exact h
  · exact h
theorem Placing.judgeHolds : Placing s t.judgeHolds :=
  List.foldlRecOn (motive := fun u : State => Placing s u) allFour State.judgeHold h fun _ k i _ => k.judgeHold i
theorem Placing.dropHold (i) : Placing s (t.dropHold i) := by
  unfold State.dropHold
  split
  · split
    · exact (h.placeOp (t.current_ownRemove _ _)).onAdm _ rfl rfl rfl
    · exact h.onAdm _ rfl rfl rfl
  · exact h
theorem Placing.admReticent : Placing s t.admReticent := by
  unfold State.admReticent; split <;> [exact h.yieldStep; exact h]
theorem Placing.admEngaged : Placing s t.admEngaged := by
  unfold State.admEngaged; split <;> [exact h.requestEval _; exact h]
/-- Letting the own step go at detachment (R49). -/
theorem Placing.ownDetached : Placing s
    (match t.adm.own with
    | .running => t.stopRun .linkLost
    | .none => t
    | _ => (t.placeOp (.ownRemove .cip (resourcesOf t.ownPairs))).onAdm (Admission.enter .none)) := by
  split
  · exact h.stopRun _
  · exact h
  · exact (h.placeOp (t.current_ownRemove _ _)).enter _
theorem Placing.dropHolds : Placing s (allFour.foldl State.dropHold t) :=
  List.foldlRecOn (motive := fun u : State => Placing s u) allFour State.dropHold h fun _ k i _ => k.dropHold i
theorem Placing.emptyProducts : Placing s (allFour.foldl (fun s i => s.placeProduct i none) t) :=
  List.foldlRecOn (motive := fun u : State => Placing s u) allFour _ h fun _ k i _ => k.placeProduct i none
theorem Placing.admDetached : Placing s t.admDetached := by
  unfold State.admDetached
  exact ((h.ownDetached.dropHolds.placeOwn none).emptyProducts).onAdm _ rfl rfl rfl
theorem Placing.takeSample (x) : Placing s (t.takeSample x) := by
  unfold State.takeSample
  have noted := (h.onVer fun _ => (t.ver.takeSample t.settings.sampleMs t.settings.sensorLimit t.curStep
    (t.convSet t.curStep) x).ver).stickyIf (t.ver.takeSample t.settings.sampleMs t.settings.sensorLimit t.curStep
    (t.convSet t.curStep) x).sensorAbsent .sensorAbsent (by decide)
  dsimp only
  split
  · exact noted
  · exact noted.burstComplete
  · exact noted.sensorLostReport
end

/-! ### What placing leaves -/

section
variable {s t : State} (h : Placing s t)
include h

theorem Placing.fixed : t.fixed = s.fixed := by
  induction h with
  | quiet k => exact k.fixed
  | place k => simp
  | trans _ _ ih ik => exact ik.trans ih

theorem Placing.settings : t.settings = s.settings := (State.fixed_eq h.fixed).2.1

theorem Placing.flags (f : Sticky) : s.flag f = true → t.flag f = true := by
  induction h with
  | quiet k => exact k.flags f
  | @place u op k => exact fun hf => (State.placeOp_log u op).records.flags f hf
  | trans _ _ ih ik => exact fun hf => ik (ih hf)

theorem Placing.overcommit : t.flag .overcommit = s.flag .overcommit := by
  induction h with
  | quiet k => exact k.overcommit
  | @place u op k =>
    rcases State.placeOp_log u op with e | e <;> simp [State.flag, e, Log.isSet_setFlag]
  | trans _ _ ih ik => exact ik.trans ih

/-- Of the link controller only the note that hold-off has moved can change. -/
theorem Placing.link : t.link = { s.link with holdOffMoved := t.link.holdOffMoved } := by
  induction h with
  | quiet k => rw [k.link]
  | @place u op k =>
    unfold State.placeOp
    split
    · unfold State.enqueue; dsimp only; split <;> rfl
    · rfl
  | trans _ _ ih ik => rw [ik, ih]

theorem Placing.ops : s.updates.ops <+: t.updates.ops := by
  induction h with
  | quiet k => rw [k.updates]
  | place k => exact State.placeOp_prefix _ _
  | trans _ _ ih ik => exact ih.trans ik

theorem Placing.untouched : Untouched [.updates, .adm, .seq, .ver, .tx, .log] s t := by
  obtain ⟨h1, h2, h3, h4, h5, h6⟩ := State.fixed_eq h.fixed
  refine ⟨fun _ => h1, fun _ => h2, fun _ => h3, fun _ => h4, ?_, ?_, ?_, ?_, fun _ => ?_, fun _ => ?_, ?_, ?_, h6⟩
  case refine_5 => rw [h5]; rfl
  case refine_6 => unfold SameLink; rw [h.link]
  all_goals exact fun n => absurd (by simp) n
end

end Sys2Proof.Machine
end

section
/-! What one command can do to the loader, the settings, the recipe store, the lane board and the field port: one inversion over
all commands. -/

namespace Sys2Proof.Machine

/-- The board after a command that is no reset: as it was, or as the one operation, expiry or rejoin that the command carries out
leaves it. -/
inductive BoardMove (s : State) : Instr → Board → Prop where
  | same (c) : BoardMove s c s.board
  | announcement (c) {a rest} (head : s.updates.ops = .announce a :: rest) (taken : a.discarded s.settings.node = false) :
      BoardMove s c (applyAnnouncement s.settings.capacity a s.board).1.board
  | release {owner role w rest} (head : s.updates.ops = .release owner role w :: rest) :
      BoardMove s .applyRelease (s.board.releaseAll s.settings.capacity owner role (setMembers w)).holdTimers
  | inhibit {w rest} (head : s.updates.ops = .inhibit w :: rest) :
      BoardMove s .inhibitOperation (s.board.setInhibit true (setMembers w))
  | clear {w rest} (head : s.updates.ops = .clear w :: rest) :
      BoardMove s .clearOperation (s.board.setInhibit false (setMembers w))
  | ownInsert {role pairs key st rest} (head : s.updates.ops = .ownInsert role pairs key st :: rest) :
      BoardMove s .ownInsert (pairs.foldl (ownInsertPair s.settings.capacity s.settings.node role key st)
        ⟨s.board, [], []⟩).board.holdTimers
  | ownUpdate {role pairs key st rest} (head : s.updates.ops = .ownUpdate role pairs key st :: rest) :
      BoardMove s .ownUpdate (pairs.foldl (ownUpdatePair role key st) ⟨s.board, [], []⟩).board
  | ownRemove {role rs rest} (head : s.updates.ops = .ownRemove role rs :: rest) :
      BoardMove s .ownRemove (s.board.ownRemove role rs).holdTimers
  | expiry {n r e} (at_ : s.board.whereIs n = some (r, e)) (due : e.due = true) :
      BoardMove s (.entryExpiry n) (s.board.unlink r fun x => decide (x.num = n)).holdTimers
  | incomplete (r) : BoardMove s (.incompleteTimerExpiry r) { s.board with
      incomplete := modAt s.board.incomplete r fun _ => false
      incompleteMs := modAt s.board.incompleteMs r fun _ => 0 }
  | cleared : BoardMove s .rejoin s.board.clearAll

/-- The loader after a command that is no reset and no start-up: as it was, one phase on, or one second on. -/
inductive LoaderMove (s : State) : Instr → Loader → Prop where
  | same (c) : LoaderMove s c s.loader
  | reading (h : s.loader.phase = .held) : LoaderMove s .resetFallingEdge { s.loader with phase := .reading }
  | accepted (bytes) (h : s.loader.phase = .reading) (j : (judgeImage bytes).2 = true) :
      LoaderMove s (.imageReadEnd bytes)
        { s.loader with phase := .validating, check := (judgeImage bytes).1, image := bytes }
  | refused (bytes) (h : s.loader.phase = .reading) :
      LoaderMove s (.imageReadEnd bytes) { s.loader with phase := .configFault, check := (judgeImage bytes).1, image := [] }
  | second (h : s.isRunning = true) :
      LoaderMove s .uptimeTick { s.loader with uptime := (s.loader.uptime + 1) % 2 ^ 32, uptimeMs := 0 }

/-- What a command that is no reset and no start-up does to the fixed blocks. -/
structure FixedMove (s : State) (c : Instr) (u : State) : Prop where
  loader : LoaderMove s c u.loader
  settings : u.settings = s.settings
  store : u.store = s.store
  board : BoardMove s c u.board
  pending : u.pending = s.pending

theorem FixedMove.of_loader {s u : State} {c : Instr} (loader : LoaderMove s c u.loader)
    (h : u.settings = s.settings ∧ u.store = s.store ∧ u.board = s.board ∧ u.pending = s.pending) : FixedMove s c u :=
  ⟨loader, h.1, h.2.1, h.2.2.1 ▸ .same c, h.2.2.2⟩

/-- A command that moves at most the field port among the fixed blocks. -/
theorem FixedMove.of_port {s u : State} (c : Instr) (v : State) (hu : u.fixed = v.fixed)
    (hv : v.fixed = { s.fixed with port := v.port }) : FixedMove s c u := by
  obtain ⟨h1, h2, h3, h4, -, h6⟩ := State.fixed_eq hu
  simp only [State.fixed, Fixed.mk.injEq] at hv
  obtain ⟨k1, k2, k3, k4, -, k6⟩ := hv
  exact ⟨(h1.trans k1) ▸ .same c, h2.trans k2, h3.trans k3, (h4.trans k4) ▸ .same c, h6.trans k6⟩

theorem FixedMove.of_fixed {s u : State} (c : Instr) (h : u.fixed = s.fixed) : FixedMove s c u := .of_port c s h rfl

/-- A command that moves at most the board among the fixed blocks. -/
theorem FixedMove.of_board {s u : State} {c : Instr} {b : Board} (h : u.fixed = (s.onBoard fun _ => b).fixed)
    (hb : BoardMove s c b) : FixedMove s c u := by
  obtain ⟨h1, h2, h3, h4, -, h6⟩ := State.fixed_eq h
  exact ⟨h1 ▸ .same c, h2, h3, h4 ▸ hb, h6⟩

section
variable (s : State)

theorem State.fixed_takeSample (x) : (s.takeSample x).fixed = s.fixed :=
  ((Placing.refl s).takeSample x).fixed

theorem State.fixed_ageStep : s.ageStep.fixed = s.fixed := by
  unfold State.ageStep; dsimp only; rw [State.fixed_requestEval]; split <;> simp

theorem State.carryAnnouncement_moves (c) {a rest} (head : s.updates.ops = .announce a :: rest) :
    FixedMove s c (s.carryAnnouncement a) := by
  unfold State.carryAnnouncement
  split
  · exact .of_fixed _ (by simp)
  · rename_i h
    exact .of_board (by simp) (.announcement c head (by simpa using h))

theorem State.carryRelease_moves {owner role w rest} (head : s.updates.ops = .release owner role w :: rest) :
    FixedMove s .applyRelease (s.carryRelease owner role w) := by
  unfold State.carryRelease
  dsimp only
  split
  · exact .of_fixed _ (by simp)
  · exact .of_board (by rw [State.fixed_hallResult, State.fixed_dequeue]; rfl) (.release head)

theorem State.setInhibit_carried (value set) :
    (s.carryInhibit value set).fixed = (s.onBoard fun _ => s.board.setInhibit value (setMembers set)).fixed := by
  unfold State.carryInhibit; rw [State.fixed_hallResult, State.fixed_dequeue]; rfl

theorem State.carryInsert_moves {role pairs key st rest} (head : s.updates.ops = .ownInsert role pairs key st :: rest) :
    FixedMove s .ownInsert (s.carryInsert role pairs key st) :=
  .of_board (by unfold State.carryInsert; simp only [State.fixed_ownResult, State.fixed_dequeue, State.fixed_stickyIf])
    (.ownInsert head)

theorem State.carryUpdate_moves {role pairs key st rest} (head : s.updates.ops = .ownUpdate role pairs key st :: rest) :
    FixedMove s .ownUpdate (s.carryUpdate role pairs key st) :=
  .of_board (by
    unfold State.carryUpdate; simp only [State.fixed_updateResult, State.fixed_dequeue, State.fixed_stickyIf])
    (.ownUpdate head)

theorem State.carryRemove_moves {role rs rest} (head : s.updates.ops = .ownRemove role rs :: rest) :
    FixedMove s .ownRemove (s.carryRemove role rs) :=
  .of_board (by unfold State.carryRemove; simp only [State.fixed_ownResult, State.fixed_dequeue]; rfl) (.ownRemove head)

theorem State.fixed_carryEvaluate : s.carryEvaluate.fixed = s.fixed := by simp [State.carryEvaluate]
end

/-- Every command that is no reset and no start-up ends in `done` of an effect that moves the fixed blocks in one of these ways. -/
theorem exec_fixed (c : Instr) (s : State) (hc : ¬ startsAfresh c) : ∃ u, exec c s = done u ∧ FixedMove s c u := by
  cases c with
  | powerUp => exact absurd (.inl rfl) hc
  | resetRisingEdge => exact absurd (.inr (.inl rfl)) hc
  | startUpComplete => exact absurd (.inr (.inr rfl)) hc
  | resetFallingEdge =>
    refine ⟨_, rfl, ?_⟩
    split
    · rename_i h; exact .of_loader (.reading h.2.2) ⟨rfl, rfl, rfl, rfl⟩
    · exact .of_fixed _ rfl
  | imageReadEnd bytes =>
    refine ⟨_, rfl, ?_⟩
    split
    · rename_i h
      dsimp only
      cases j : (judgeImage bytes).2
      · exact .of_loader (by simpa using .refused bytes h) ⟨rfl, rfl, rfl, rfl⟩
      · exact .of_loader (by simpa using .accepted bytes h j) ⟨rfl, rfl, rfl, rfl⟩
    · exact .of_fixed _ rfl
  | uptimeTick =>
    refine ⟨_, rfl, ?_⟩
    split
    · rename_i h; exact .of_loader (.second h) ⟨rfl, rfl, rfl, rfl⟩
    · exact .of_fixed _ rfl
  | inputLevelChange x active => exact ⟨_, rfl, .of_port _ _ rfl rfl⟩
  | reqRisingEdge i =>
    refine ⟨_, rfl, ?_⟩
    split <;> [exact .of_port _ (s.onPort _) (State.fixed_roundRequest _ _ _) rfl; exact .of_fixed _ rfl]
  | confirmRisingEdge =>
    refine ⟨_, rfl, ?_⟩
    split
    · refine .of_port _ (s.onPort fun p => { p with confirm := p.confirm.settled }) ?_ rfl
      unfold State.confirmEdge
      split <;> simp
    · exact .of_fixed _ rfl
  | stopChange =>
    refine ⟨_, rfl, ?_⟩
    split
    · refine .of_port _ (s.onPort fun p => { p with stop := p.stop.settled }) ?_ rfl
      dsimp only
      split <;> simp [State.stopActive]
    · exact .of_fixed _ rfl
  | prodLineChange i =>
    refine ⟨_, rfl, ?_⟩
    split <;> [exact .of_port _ (s.onPort _) (State.fixed_judgeHolds _) rfl; exact .of_fixed _ rfl]
  | samplePeriodExpiry =>
    refine ⟨_, rfl, ?_⟩
    split <;> [exact .of_port _ _ rfl rfl; exact .of_fixed _ rfl]
  | sampleReply bytes =>
    refine ⟨_, rfl, ?_⟩
    split
    · split
      · split <;> [exact .of_port _ (s.onPort _) (State.fixed_takeSample _ _) rfl; exact .of_fixed _ rfl]
      · exact .of_port _ (s.onPort _) ((State.fixed_takeSample _ _).trans (State.fixed_stickyIf _ _ _)) rfl
    · exact .of_fixed _ rfl
  | replyTimeout =>
    refine ⟨_, rfl, ?_⟩
    split
    · exact .of_port _ (s.onPort _) ((State.fixed_takeSample _ _).trans (State.fixed_stickyIf _ _ _)) rfl
    · exact .of_fixed _ rfl
  | applyAnnouncementCip =>
    refine ⟨_, rfl, ?_⟩
    split
    · split <;> [exact s.carryAnnouncement_moves _ ‹_›; exact .of_fixed _ rfl]
    · exact .of_fixed _ rfl
  | applyAnnouncementProduct =>
    refine ⟨_, rfl, ?_⟩
    split
    · split <;> [exact s.carryAnnouncement_moves _ ‹_›; exact .of_fixed _ rfl]
    · exact .of_fixed _ rfl
  | applyRelease =>
    refine ⟨_, rfl, ?_⟩
    split <;> [exact s.carryRelease_moves ‹_›; exact .of_fixed _ rfl]
  | inhibitOperation =>
    refine ⟨_, rfl, ?_⟩
    split <;> [exact .of_board (s.setInhibit_carried _ _) (.inhibit ‹_›); exact .of_fixed _ rfl]
  | clearOperation =>
    refine ⟨_, rfl, ?_⟩
    split <;> [exact .of_board (s.setInhibit_carried _ _) (.clear ‹_›); exact .of_fixed _ rfl]
  | ownInsert =>
    refine ⟨_, rfl, ?_⟩
    split <;> [exact s.carryInsert_moves ‹_›; exact .of_fixed _ rfl]
  | ownUpdate =>
    refine ⟨_, rfl, ?_⟩
    split <;> [exact s.carryUpdate_moves ‹_›; exact .of_fixed _ rfl]
  | ownRemove =>
    refine ⟨_, rfl, ?_⟩
    split <;> [exact s.carryRemove_moves ‹_›; exact .of_fixed _ rfl]
  | evaluate =>
    refine ⟨_, rfl, ?_⟩
    split <;> [exact .of_fixed _ s.fixed_carryEvaluate; exact .of_fixed _ rfl]
  | entryExpiry n =>
    refine ⟨_, rfl, ?_⟩
    split
    · split
      · exact .of_board (by rw [State.fixed_hallResult, State.fixed_stickyIf]; rfl) (.expiry ‹_› ‹_›)
      · exact .of_fixed _ rfl
    · exact .of_fixed _ rfl
  | incompleteTimerExpiry r =>
    refine ⟨_, rfl, ?_⟩
    split <;> [exact .of_board (by rw [State.fixed_notice]; rfl) (.incomplete r); exact .of_fixed _ rfl]
  | rejoin =>
    refine ⟨_, rfl, ?_⟩
    split
    · exact .of_board (by rw [State.fixed_judgeHolds, State.fixed_takeRequest]; rfl) .cleared
    · exact .of_fixed _ rfl
  | agingExpiry =>
    refine ⟨_, rfl, .of_fixed _ ?_⟩
    split
    · dsimp only
      split <;> [exact State.fixed_ageStep _; rfl]
    · rfl
  | learningExpiry => refine ⟨_, rfl, .of_fixed _ ?_⟩; split <;> simp
  | settleExpiry =>
    refine ⟨_, rfl, .of_fixed _ ?_⟩
    split
    · dsimp only
      split <;> simp
    · rfl
  | lapseExpiry =>
    refine ⟨_, rfl, .of_fixed _ ?_⟩
    split
    · split <;> simp [State.lapseRunPending]
    · rfl
  | refreshExpiry =>
    refine ⟨_, rfl, .of_fixed _ ?_⟩
    split
    · dsimp only
      split <;> simp
    · rfl
  | guardExpiry => refine ⟨_, rfl, .of_fixed _ ?_⟩; split <;> simp
  | productRefreshExpiry i =>
    refine ⟨_, rfl, .of_fixed _ ?_⟩
    split
    · split <;> rfl
    · rfl
  | stepTimerExpiry => refine ⟨_, rfl, .of_fixed _ ?_⟩; split <;> simp
  | pauseTimerExpiry => refine ⟨_, rfl, .of_fixed _ ?_⟩; split <;> rfl
  | suspendTimerExpiry => refine ⟨_, rfl, .of_fixed _ ?_⟩; split <;> simp
  | announce f => exact ⟨_, rfl, .of_fixed _ (State.fixed_receiveFrame s _ _)⟩
  | release f => exact ⟨_, rfl, .of_fixed _ (State.fixed_receiveFrame s _ _)⟩
  | inhibit f => exact ⟨_, rfl, .of_fixed _ (State.fixed_receiveFrame s _ _)⟩
  | clear f => exact ⟨_, rfl, .of_fixed _ (State.fixed_receiveFrame s _ _)⟩
  | request f => exact ⟨_, rfl, .of_fixed _ (State.fixed_receiveFrame s _ _)⟩
  | abort f => exact ⟨_, rfl, .of_fixed _ (State.fixed_receiveFrame s _ _)⟩
  | resume f => exact ⟨_, rfl, .of_fixed _ (State.fixed_receiveFrame s _ _)⟩
  | report f => exact ⟨_, rfl, .of_fixed _ (State.fixed_receiveFrame s _ _)⟩
  | status f => exact ⟨_, rfl, .of_fixed _ (State.fixed_receiveFrame s _ _)⟩
  | record f => exact ⟨_, rfl, .of_fixed _ (State.fixed_receiveFrame s _ _)⟩
  | unknownKind k f => exact ⟨_, rfl, .of_fixed _ (State.fixed_receiveFrame s _ _)⟩
  | commandNotAddressed f => exact ⟨_, rfl, .of_fixed _ (State.fixed_receiveFrame s _ _)⟩
  | receivedFrameCheckFailed => refine ⟨_, rfl, .of_fixed _ ?_⟩; split <;> simp
  | frameBreakOff => refine ⟨_, rfl, .of_fixed _ ?_⟩; split <;> simp
  | arbitrationLost => refine ⟨_, rfl, .of_fixed _ ?_⟩; split <;> rfl
  | frameAbandon => refine ⟨_, rfl, .of_fixed _ ?_⟩; split <;> simp
  | ownFrameEnd k => refine ⟨_, rfl, .of_fixed _ ?_⟩; split <;> simp
  | mediumIdle => refine ⟨_, rfl, .of_fixed _ ?_⟩; split <;> rfl
  | peerStartField => refine ⟨_, rfl, .of_fixed _ ?_⟩; split <;> rfl
  | holdBackExpiry => refine ⟨_, rfl, .of_fixed _ ?_⟩; split <;> rfl
  | statusPeriodExpiry => refine ⟨_, rfl, .of_fixed _ ?_⟩; split <;> rfl

end Sys2Proof.Machine
end

section
/-! Every block in its condition from before start-up (R23, R51, R55, R69, R96, R119, R132, R155, R163, R175, R180). -/

namespace Sys2Proof.Machine

theorem done_next {u t : State} (h : done u = .next t) : t = u.finish := by
  unfold done at h; exact (Host.Outcome.next.inj h).symm

theorem State.isRunning_eq_false {s : State} (h : s.loader.phase ≠ .running) : s.isRunning = false := by
  simp [State.isRunning, h]

/-! ### Resets and start-up -/

/-- State.reset is inert. -/
theorem State.reset_inert : State.reset.Inert :=
  ⟨rfl, rfl, rfl, rfl, rfl, rfl, rfl, rfl, rfl, rfl, ⟨rfl, rfl⟩, ⟨rfl, rfl, rfl⟩, rfl⟩

/-- A node held in reset is inert. -/
theorem State.held_inert (s : State) (l : Line) : (s.held l).Inert :=
  ⟨rfl, rfl, rfl, rfl, rfl, rfl, rfl, rfl, rfl, rfl, ⟨rfl, rfl⟩, ⟨rfl, rfl, rfl⟩, rfl⟩

theorem State.started_phase (s : State) (d : Loaded) : (s.started d).judgeHolds.loader.phase = .running := by
  rw [(State.fixed_eq (State.fixed_judgeHolds _)).1]; rfl

/-- The end of a command keeps an inert node inert: nothing is offered, and the lines are de-energised. -/
theorem State.Inert.finish {s : State} (h : s.Inert) (hp : s.loader.phase ≠ .running) : s.finish.Inert := by
  have idle := State.isRunning_eq_false hp
  have e : s.finish = s.drive := by
    unfold State.finish; rw [State.offer_of_not]; simp [State.mayOffer, idle]
  rw [e]
  obtain ⟨h1, h2, h3, h4, h5, h6, h7, h8, h9, h10, h11, h12, -⟩ := h
  exact ⟨h1, h2, h3, h4, h5, h6, h7, h8, h9, h10, h11, h12, by simp [State.lines, idle]⟩

/-! ### Commands to an inert node -/

theorem Board.whereIs_start (n : Fin 64) : Board.start.whereIs n = none := by
  simp [Board.whereIs, Board.start]

/-- Changes of the input lines, and of the loader's phase, keep an inert node inert. -/
theorem State.Inert.onPort {s : State} (h : s.Inert) (f : Port → Port)
    (hf : (f s.port).exchange = s.port.exchange ∧ (f s.port).samplePeriod = s.port.samplePeriod
      ∧ (f s.port).replyTimer = s.port.replyTimer ∧ (f s.port).outputs = s.port.outputs) : (s.onPort f).Inert := by
  obtain ⟨h1, h2, h3, h4, h5, h6, h7, h8, h9, h10, h11, h12, h13⟩ := h
  obtain ⟨k1, k2, k3, k4⟩ := hf
  exact ⟨h1, h2, h3, h4, h5, h6, h7, h8, h9, h10, h11, ⟨k1.trans h12.1, k2.trans h12.2.1, k3.trans h12.2.2⟩, k4.trans h13⟩
theorem State.Inert.onLoader {s : State} (h : s.Inert) (f : Loader → Loader)
    (hf : (f s.loader).uptime = s.loader.uptime ∧ (f s.loader).uptimeMs = s.loader.uptimeMs) : (s.onLoader f).Inert := by
  obtain ⟨h1, h2, h3, h4, h5, h6, h7, h8, h9, h10, h11, h12, h13⟩ := h
  exact ⟨h1, h2, h3, h4, h5, h6, h7, h8, h9, h10, ⟨hf.1.trans h11.1, hf.2.trans h11.2⟩, h12, h13⟩

/-- Outside RUNNING no command is carried out on an inert node but those of RESET, the loader and the input levels. -/
theorem exec_of_inert (c : Instr) {s : State} (h : s.Inert) (hp : s.loader.phase ≠ .running) :
    ∃ u, exec c s = done u ∧ (u.loader.phase = .running ∨ u.Inert) := by
  have idle := State.isRunning_eq_false hp
  have stays : (∃ u, exec c s = done u ∧ u = s) → ∃ u, exec c s = done u ∧ (u.loader.phase = .running ∨ u.Inert) :=
    fun ⟨u, hu, e⟩ => ⟨u, hu, .inr (e ▸ h)⟩
  have adm := h.adm
  have ops : s.updates.ops = [] := by rw [h.updates]
  have board := h.board
  have seq := h.seq
  have unheard : ∀ kind f, s.receiveFrame kind f = s := fun kind f => by simp [State.receiveFrame, idle]
  cases c with
  | powerUp => exact ⟨_, rfl, .inr (s.held_inert _)⟩
  | resetRisingEdge => refine ⟨_, rfl, .inr ?_⟩; split <;> [exact s.held_inert _; exact h]
  | resetFallingEdge =>
    refine ⟨_, rfl, .inr ?_⟩
    split <;> [exact (h.onPort _ ⟨rfl, rfl, rfl, rfl⟩).onLoader _ ⟨rfl, rfl⟩; exact h]
  | imageReadEnd bytes =>
    refine ⟨_, rfl, .inr ?_⟩
    split
    · refine h.onLoader _ ?_; split <;> exact ⟨rfl, rfl⟩
    · exact h
  | startUpComplete =>
    refine ⟨_, rfl, ?_⟩
    split <;> [exact .inl (s.started_phase _); exact .inr h]
  | inputLevelChange x active =>
    refine ⟨_, rfl, .inr (h.onPort _ ?_)⟩
    cases x <;> exact ⟨rfl, rfl, rfl, rfl⟩
  | uptimeTick => exact stays ⟨_, rfl, by simp [idle]⟩
  | reqRisingEdge i => exact stays ⟨_, rfl, by simp [idle]⟩
  | confirmRisingEdge => exact stays ⟨_, rfl, by simp [idle]⟩
  | stopChange => exact stays ⟨_, rfl, by simp [idle]⟩
  | prodLineChange i => exact stays ⟨_, rfl, by simp [idle]⟩
  | samplePeriodExpiry => exact stays ⟨_, rfl, by simp [idle]⟩
  | sampleReply bytes => exact stays ⟨_, rfl, by simp [idle]⟩
  | replyTimeout => exact stays ⟨_, rfl, by simp [idle]⟩
  | applyAnnouncementCip => exact stays ⟨_, rfl, by simp [ops]⟩
  | applyAnnouncementProduct => exact stays ⟨_, rfl, by simp [ops]⟩
  | applyRelease => exact stays ⟨_, rfl, by simp [ops]⟩
  | inhibitOperation => exact stays ⟨_, rfl, by simp [ops]⟩
  | clearOperation => exact stays ⟨_, rfl, by simp [ops]⟩
  | ownInsert => exact stays ⟨_, rfl, by simp [ops]⟩
  | ownUpdate => exact stays ⟨_, rfl, by simp [ops]⟩
  | ownRemove => exact stays ⟨_, rfl, by simp [ops]⟩
  | evaluate => exact stays ⟨_, rfl, by simp [ops]⟩
  | entryExpiry n => exact stays ⟨_, rfl, by simp [board, Board.whereIs_start]⟩
  | incompleteTimerExpiry r => exact stays ⟨_, rfl, by simp [board, Board.incompleteDue, Board.start]⟩
  | agingExpiry => exact stays ⟨_, rfl, by simp [State.agingDue, State.agingRuns, adm, Admission.start]⟩
  | learningExpiry => exact stays ⟨_, rfl, by simp [adm, Admission.start, Timer.stopped]⟩
  | settleExpiry => exact stays ⟨_, rfl, by simp [adm, Admission.start]⟩
  | lapseExpiry => exact stays ⟨_, rfl, by simp [adm, Admission.start, Timer.stopped]⟩
  | refreshExpiry => exact stays ⟨_, rfl, by simp [adm, Admission.start, Timer.stopped]⟩
  | guardExpiry => exact stays ⟨_, rfl, by simp [adm, Admission.start]⟩
  | productRefreshExpiry i => exact stays ⟨_, rfl, by simp [adm, Admission.start]⟩
  | stepTimerExpiry => exact stays ⟨_, rfl, by simp [seq, Sequencer.start]⟩
  | pauseTimerExpiry => exact stays ⟨_, rfl, by simp [seq, Sequencer.start]⟩
  | suspendTimerExpiry => exact stays ⟨_, rfl, by simp [seq, Sequencer.start]⟩
  | announce f => exact stays ⟨_, rfl, unheard _ _⟩
  | release f => exact stays ⟨_, rfl, unheard _ _⟩
  | inhibit f => exact stays ⟨_, rfl, unheard _ _⟩
  | clear f => exact stays ⟨_, rfl, unheard _ _⟩
  | request f => exact stays ⟨_, rfl, unheard _ _⟩
  | abort f => exact stays ⟨_, rfl, unheard _ _⟩
  | resume f => exact stays ⟨_, rfl, unheard _ _⟩
  | report f => exact stays ⟨_, rfl, unheard _ _⟩
  | status f => exact stays ⟨_, rfl, unheard _ _⟩
  | record f => exact stays ⟨_, rfl, unheard _ _⟩
  | unknownKind k f => exact stays ⟨_, rfl, unheard _ _⟩
  | commandNotAddressed f => exact stays ⟨_, rfl, unheard _ _⟩
  | receivedFrameCheckFailed => exact stays ⟨_, rfl, by simp [State.receiving, idle]⟩
  | frameBreakOff => exact stays ⟨_, rfl, by simp [State.receiving, idle]⟩
  | arbitrationLost => exact stays ⟨_, rfl, by simp [State.sending, idle]⟩
  | frameAbandon => exact stays ⟨_, rfl, by simp [State.sending, idle]⟩
  | ownFrameEnd k => exact stays ⟨_, rfl, by simp [State.sending, idle]⟩
  | mediumIdle => exact stays ⟨_, rfl, by simp [idle]⟩
  | peerStartField => exact stays ⟨_, rfl, by simp [idle]⟩
  | holdBackExpiry => exact stays ⟨_, rfl, by simp [h.tx, Selector.start, Timer.stopped]⟩
  | rejoin => exact stays ⟨_, rfl, by simp [h.link, Link.start]⟩
  | statusPeriodExpiry => exact stays ⟨_, rfl, by simp [idle]⟩

/-! ### Every command -/

/-- While blocks work, a command that is no reset and no start-up leaves the phase RUNNING. -/
theorem LoaderMove.running {s : State} {c : Instr} {l : Loader} (h : LoaderMove s c l) (hp : s.loader.phase = .running) :
    l.phase = .running := by
  cases h with
  | same => exact hp
  | second => exact hp
  | reading k => rw [hp] at k; cases k
  | accepted _ k => rw [hp] at k; cases k
  | refused _ k => rw [hp] at k; cases k

/-- A command on a working node leaves it working, or holds it. -/
theorem exec_of_running (c : Instr) {s : State} (hp : s.loader.phase = .running) :
    ∃ u, exec c s = done u ∧ (u.loader.phase = .running ∨ u.Inert) := by
  by_cases hc : startsAfresh c
  · rcases hc with rfl | rfl | rfl
    · exact ⟨_, rfl, .inr (s.held_inert _)⟩
    · refine ⟨_, rfl, ?_⟩; split <;> [exact .inr (s.held_inert _); exact .inl hp]
    · exact ⟨_, rfl, .inl (by simp [hp])⟩
  · obtain ⟨u, hu, k⟩ := exec_fixed c s hc
    exact ⟨u, hu, .inl (k.loader.running hp)⟩

theorem State.inertUntilRunning_exec {c : Instr} {s t : State} (h : s.InertUntilRunning) (e : exec c s = .next t) :
    t.InertUntilRunning := by
  have : ∃ u, Machine.exec c s = done u ∧ (u.loader.phase = .running ∨ u.Inert) := by
    by_cases hp : s.loader.phase = .running
    · exact exec_of_running c hp
    · exact exec_of_inert c (h hp) hp
  obtain ⟨u, hu, k⟩ := this
  rw [hu] at e
  rw [done_next e]
  intro hp
  rw [State.finish_loader] at hp
  exact (k.resolve_left hp).finish hp

/-- A step is a command on the state without it, or what falls due, or a millisecond that passes. -/
theorem step_cases {s t : State} (h : step s = .next t) :
    (∃ c rest, exec c { s with pending := rest } = .next t) ∨ (∃ c, exec c s = .next t) ∨ t = s.tick.finish := by
  unfold step at h
  split at h
  · exact .inl ⟨_, _, h⟩
  · unfold idle at h
    split at h
    · exact .inr (.inl ⟨_, h⟩)
    · exact .inr (.inr (done_next h))

/-- A property that does not look at the queue of commands is kept by every step if every command and every millisecond keep it. -/
theorem step_keeps {P : State → Prop} (queue : ∀ s rest, P s → P { s with pending := rest })
    (command : ∀ c s t, P s → exec c s = .next t → P t) (millisecond : ∀ s, P s → P s.tick.finish)
    {s t : State} (hs : P s) (h : step s = .next t) : P t := by
  rcases step_cases h with ⟨c, rest, e⟩ | ⟨c, e⟩ | rfl
  · exact command c _ t (queue s rest hs) e
  · exact command c s t hs e
  · exact millisecond s hs

theorem State.inertUntilRunning_tick {s : State} (h : s.InertUntilRunning) : s.tick.finish.InertUntilRunning := by
  unfold State.tick
  split
  · rename_i hr
    intro hp
    rw [State.finish_loader] at hp
    exact absurd (of_decide_eq_true hr) hp
  · intro hp
    rw [State.finish_loader] at hp
    exact ((h hp).onPort _ ⟨rfl, rfl, rfl, rfl⟩).finish hp

end Sys2Proof.Machine

open Sys2Proof Sys2Proof.Machine

/-- Settles O7: on an inert node no command but those of RESET, loader and input levels is carried out, and RUNNING is left only by a
reset. -/
theorem inertUntilRunningKept : Obligations.InertUntilRunningKept := by
  intro s t hs h
  refine step_keeps (P := State.InertUntilRunning) (fun s rest k hp => ?_) (fun _ _ _ k e => State.inertUntilRunning_exec k e) (fun _ k => State.inertUntilRunning_tick k) hs h
  obtain ⟨h1, h2, h3, h4, h5, h6, h7, h8, h9, h10, h11, h12, h13⟩ := k hp
  exact ⟨h1, h2, h3, h4, h5, h6, h7, h8, h9, h10, h11, h12, h13⟩

/-- Settles O4. -/
theorem resetStateIsHeld : Obligations.ResetStateIsHeld := by
  refine ⟨rfl, State.reset_inert, rfl, fun r => ⟨?_, ?_, ?_, ?_⟩, fun i => ⟨?_, ?_⟩, rfl, rfl, rfl, rfl, rfl, rfl, rfl, rfl, rfl⟩
  all_goals simp [State.reset, Board.start, Store.empty]

end

section
/-! Rules of the board's operations: what each does to the list of a resource, to the free list, and to the rest (R3, R4, R5). -/

namespace Sys2Proof.Machine

/-! ### Lists -/

theorem insertEntry_perm (e : Entry) (l : List Entry) : (insertEntry e l).Perm (e :: l) := by
  induction l with
  | nil => exact .refl _
  | cons x xs ih =>
    unfold insertEntry
    split
    · exact (ih.cons x).trans (.swap e x xs)
    · exact .refl _

@[simp] theorem mem_insertEntry {e x : Entry} {l : List Entry} : x ∈ insertEntry e l ↔ x = e ∨ x ∈ l := by
  rw [(insertEntry_perm e l).mem_iff, List.mem_cons]

/-- An entry that meets no condition does not show behind it, wherever it was inserted. -/
theorem filter_insertEntry {p : Entry → Bool} {e : Entry} (h : p e = false) (l : List Entry) :
    (insertEntry e l).filter p = l.filter p := by
  induction l with
  | nil => simp [insertEntry, h]
  | cons x xs ih =>
    unfold insertEntry
    split <;> simp [List.filter_cons, ih, h]

theorem find?_insertEntry {p : Entry → Bool} {e : Entry} (h : p e = true) {l : List Entry} (hl : ∀ x ∈ l, p x = false) :
    (insertEntry e l).find? p = some e := by
  induction l with
  | nil => simp [insertEntry, h]
  | cons x xs ih =>
    unfold insertEntry
    split
    · rw [List.find?_cons_of_neg (by simp [hl x]), ih fun y hy => hl y (List.mem_cons_of_mem _ hy)]
    · simp [h]

/-- A list with one entry replaced (R4): what `Board.replace` does to the list it touches. -/
def replaceEntry (old new : Entry) (l : List Entry) : List Entry :=
  if old.key = new.key then l.map fun x => if x = old then new else x
  else insertEntry new (l.filter fun x => decide (x ≠ old))

/-- Up to order, the new entry stands for the old one. -/
theorem replaceEntry_perm {old new : Entry} {l : List Entry} (hm : old ∈ l) (hn : l.Nodup) :
    ∃ rest, l.Perm (old :: rest) ∧ (replaceEntry old new l).Perm (new :: rest) := by
  have away : l.erase old = l.filter fun x => decide (x ≠ old) := by
    rw [hn.erase_eq_filter]
    exact List.filter_congr fun x _ => by by_cases h : x = old <;> simp [h]
  refine ⟨l.erase old, List.perm_cons_erase hm, ?_⟩
  unfold replaceEntry
  split
  · have h := (List.perm_cons_erase hm).map fun x => if x = old then new else x
    have same : (l.erase old).map (fun x => if x = old then new else x) = l.erase old := by
      conv_rhs => rw [← List.map_id (l.erase old)]
      refine List.map_congr_left fun x hx => if_neg fun e => ?_
      rw [away, List.mem_filter] at hx
      exact absurd e (of_decide_eq_true hx.2)
    rw [List.map_cons, if_pos rfl, same] at h
    exact h
  · rw [away]; exact insertEntry_perm _ _

/-! ### The board's operations -/

section
variable (b : Board) (r q : Res)

theorem Board.unlink_lists (p) : (b.unlink r p).lists[q] = if q = r then (b.lists[r]).filter (fun e => !p e) else b.lists[q] :=
  modAt_get _ _ _ _
@[simp] theorem Board.unlink_free (p) : (b.unlink r p).free = b.free ++ ((b.lists[r]).filter p).map (·.num) := rfl
@[simp] theorem Board.unlink_inhibit (p) : (b.unlink r p).inhibit = b.inhibit := rfl
@[simp] theorem Board.unlink_incomplete (p) : (b.unlink r p).incomplete = b.incomplete := rfl
@[simp] theorem Board.unlink_incompleteMs (p) : (b.unlink r p).incompleteMs = b.incompleteMs := rfl

theorem Board.replace_lists (old new) :
    (b.replace r old new).lists[q] = if q = r then replaceEntry old new b.lists[r] else b.lists[q] := modAt_get _ _ _ _
@[simp] theorem Board.replace_free (old new) : (b.replace r old new).free = b.free := rfl
@[simp] theorem Board.replace_inhibit (old new) : (b.replace r old new).inhibit = b.inhibit := rfl
@[simp] theorem Board.replace_incomplete (old new) : (b.replace r old new).incomplete = b.incomplete := rfl

theorem Board.takeFree_lists {n rest} (h : b.free = n :: rest) (make) :
    (b.takeFree r make).lists[q] = if q = r then insertEntry (make n) b.lists[r] else b.lists[q] := by
  unfold Board.takeFree; rw [h]; exact modAt_get _ _ _ _
theorem Board.takeFree_free (make) : (b.takeFree r make).free = b.free.tail := by
  unfold Board.takeFree; cases h : b.free <;> simp [h]
@[simp] theorem Board.takeFree_inhibit (make) : (b.takeFree r make).inhibit = b.inhibit := by
  unfold Board.takeFree; split <;> rfl
@[simp] theorem Board.takeFree_incomplete (make) : (b.takeFree r make).incomplete = b.incomplete := by
  unfold Board.takeFree; split <;> rfl

@[simp] theorem Board.holdTimers_lists : b.holdTimers.lists = b.lists := by unfold Board.holdTimers; split <;> rfl
@[simp] theorem Board.holdTimers_free : b.holdTimers.free = b.free := by unfold Board.holdTimers; split <;> rfl
@[simp] theorem Board.holdTimers_inhibit : b.holdTimers.inhibit = b.inhibit := by unfold Board.holdTimers; split <;> rfl
@[simp] theorem Board.holdTimers_incomplete : b.holdTimers.incomplete = b.incomplete := by
  unfold Board.holdTimers; split <;> rfl
end

/-! ### Looking up an entry -/

section
variable {b : Board} {r : Res}

theorem Board.find_some {owner role e} (h : b.find r owner role = some e) :
    e ∈ b.lists[r] ∧ e.owner = owner ∧ e.role = role := by
  have := List.find?_some h
  exact ⟨List.mem_of_find?_eq_some h, by simpa using this⟩
theorem Board.find_none {owner role} (h : b.find r owner role = none) :
    ∀ e ∈ b.lists[r], ¬(e.owner = owner ∧ e.role = role) := by
  intro e he
  simpa using List.find?_eq_none.1 h e he
theorem Board.findOwn_some {role e} (h : b.findOwn r role = some e) : e ∈ b.lists[r] ∧ e.own = true ∧ e.role = role := by
  have := List.find?_some h
  exact ⟨List.mem_of_find?_eq_some h, by simpa using this⟩
theorem Board.findOwn_none {role} (h : b.findOwn r role = none) : ∀ e ∈ b.lists[r], ¬(e.own = true ∧ e.role = role) := by
  intro e he
  simpa using List.find?_eq_none.1 h e he
end

/-- What marking, inhibiting and the incomplete timers leave: the lists and the free list. -/
structure SameEntries (a b : Board) : Prop where
  lists : b.lists = a.lists
  free : b.free = a.free

theorem SameEntries.refl (b : Board) : SameEntries b b := ⟨rfl, rfl⟩
theorem SameEntries.trans {a b c : Board} (h : SameEntries a b) (k : SameEntries b c) : SameEntries a c :=
  ⟨k.lists.trans h.lists, k.free.trans h.free⟩
theorem SameEntries.holdTimers (b : Board) : SameEntries b b.holdTimers := ⟨by simp, by simp⟩
theorem SameEntries.setInhibit (b : Board) (v rs) : SameEntries b (b.setInhibit v rs) :=
  List.foldlRecOn (motive := fun c : Board => SameEntries b c) rs _ (.refl b) fun _ h _ _ => ⟨h.lists, h.free⟩
theorem SameEntries.markIncomplete (b : Board) (rs) : SameEntries b (b.markIncomplete rs) :=
  List.foldlRecOn (motive := fun c : Board => SameEntries b c) rs _ (.refl b) fun _ h _ _ => ⟨h.lists, h.free⟩

end Sys2Proof.Machine
end

section
/-! The entry pool: every entry number on exactly one list, and at most 57 entries of peers (R3, R5). -/

namespace Sys2Proof.Machine

/-! ### One list of the sixteen -/

/-- The entry numbers of one list. -/
def numbersOn (l : List Entry) : List (Fin 64) := l.map Entry.num

/-- The peer entries of one list. -/
def peersOn (l : List Entry) : List Entry := l.filter fun e => !e.own

/-- A board that differs from another on one list at most: what is gathered from all lists differs by that list alone. -/
theorem flatMap_lists {β : Type} (g : List Entry → List β) {a b : Board} {r : Res}
    (h : ∀ q : Res, q ≠ r → b.lists[q] = a.lists[q]) :
    ∃ others, (allRes.flatMap fun q => g a.lists[q]).Perm (g a.lists[r] ++ others)
      ∧ (allRes.flatMap fun q => g b.lists[q]).Perm (g b.lists[r] ++ others) := by
  have split (v : Board) := (List.perm_cons_erase (List.mem_finRange r)).flatMap_right fun q => g v.lists[q]
  refine ⟨(allRes.erase r).flatMap fun q => g a.lists[q], split a, ?_⟩
  have same : ((allRes.erase r).flatMap fun q => g b.lists[q]) = (allRes.erase r).flatMap fun q => g a.lists[q] := by
    refine List.flatMap_congr fun q hq => ?_
    have : q ≠ r := ((List.nodup_finRange 16).mem_erase_iff.1 hq).1
    rw [h q this]
  rw [← same]
  exact split b

/-- A board with what another has, one list and the free list changed: accounted where list and free list together hold the same
numbers, and the list no more peers or the free list still 7. -/
theorem Board.Accounted.of_list {a b : Board} {r : Res} (h : a.Accounted) (other : ∀ q : Res, q ≠ r → b.lists[q] = a.lists[q])
    (numbers : (numbersOn b.lists[r] ++ b.free).Perm (numbersOn a.lists[r] ++ a.free))
    (peers : (peersOn b.lists[r]).length ≤ (peersOn a.lists[r]).length ∨ 7 ≤ b.free.length) : b.Accounted := by
  obtain ⟨rest, ha, hb⟩ := flatMap_lists numbersOn other
  have once : b.numbers.Perm Board.allFree := by
    have e1 : b.numbers.Perm (numbersOn b.lists[r] ++ b.free ++ rest) :=
      (hb.append_right _).trans (by rw [List.append_assoc, List.append_assoc]; exact .append_left _ List.perm_append_comm)
    have e2 : a.numbers.Perm (numbersOn a.lists[r] ++ a.free ++ rest) :=
      (ha.append_right _).trans (by rw [List.append_assoc, List.append_assoc]; exact .append_left _ List.perm_append_comm)
    exact (e1.trans (numbers.append_right _)).trans (e2.symm.trans h.once)
  refine ⟨once, ?_⟩
  rcases peers with fewer | room
  · obtain ⟨rest', ka, kb⟩ := flatMap_lists peersOn other
    have la := ka.length_eq
    have lb := kb.length_eq
    have := h.peerLimit
    rw [List.length_append] at la lb
    show (allRes.flatMap fun q => peersOn b.lists[q]).length ≤ 57
    have : (allRes.flatMap fun q => peersOn a.lists[q]).length ≤ 57 := this
    omega
  · have total := once.length_eq
    have sub : b.peers.length ≤ (allRes.flatMap fun q => numbersOn b.lists[q]).length := by
      show (allRes.flatMap fun q => peersOn b.lists[q]).length ≤ _
      simp only [List.length_flatMap]
      refine List.sum_le_sum fun q _ => ?_
      simpa [peersOn, numbersOn] using List.length_filter_le _ _
    have h64 : Board.allFree.length = 64 := by simp [Board.allFree]
    have : b.numbers.length = (allRes.flatMap fun q => numbersOn b.lists[q]).length + b.free.length := List.length_append
    omega

theorem Board.Accounted.of_same {a b : Board} (h : a.Accounted) (k : SameEntries a b) : b.Accounted :=
  ⟨by have := h.once; unfold Board.numbers at this ⊢; rwa [k.lists, k.free],
    by have := h.peerLimit; unfold Board.peers at this ⊢; rwa [k.lists]⟩

/-- No number lies twice on a list, or on a list and the free list. -/
theorem Board.Accounted.nodup {b : Board} (h : b.Accounted) (r : Res) : (numbersOn b.lists[r] ++ b.free).Nodup := by
  have all : b.numbers.Nodup := h.once.nodup_iff.2 (List.nodup_finRange 64)
  have sub : (numbersOn b.lists[r]).Sublist (allRes.flatMap fun q => numbersOn b.lists[q]) := by
    refine List.sublist_flatten_of_mem ?_
    exact List.mem_map.2 ⟨r, List.mem_finRange r, rfl⟩
  exact List.Nodup.sublist (sub.append_right _) all

theorem Board.Accounted.nodup_entries {b : Board} (h : b.Accounted) (r : Res) : (b.lists[r]).Nodup :=
  List.Nodup.of_map Entry.num (h.nodup r).of_append_left

/-! ### The operations -/

theorem Board.Accounted.unlink {b : Board} (h : b.Accounted) (r : Res) (p : Entry → Bool) : (b.unlink r p).Accounted := by
  refine h.of_list (r := r) (fun q hq => by rw [Board.unlink_lists, if_neg hq]) ?_ (.inl ?_)
  · rw [Board.unlink_lists, if_pos rfl, Board.unlink_free, ← List.append_assoc]
    have parted := ((List.filter_append_perm p b.lists[r]).map Entry.num).append_right b.free
    rw [List.map_append] at parted
    refine List.perm_append_comm.trans ?_
    rw [← List.append_assoc]
    exact parted
  · rw [Board.unlink_lists, if_pos rfl]
    exact (List.Sublist.filter _ List.filter_sublist).length_le

theorem Board.Accounted.takeFree {b : Board} (h : b.Accounted) (r : Res) (make : Fin 64 → Entry)
    (hn : ∀ n, (make n).num = n) (peers : (∀ n, (make n).own = true) ∨ b.peerRoom = true) : (b.takeFree r make).Accounted := by
  cases hf : b.free with
  | nil => unfold Board.takeFree; rw [hf]; exact h
  | cons n rest =>
    have hfree : (b.takeFree r make).free = rest := by rw [Board.takeFree_free, hf]; rfl
    refine h.of_list (r := r) (fun q hq => by rw [b.takeFree_lists r q hf, if_neg hq]) ?_ ?_
    · rw [b.takeFree_lists r r hf, if_pos rfl, hfree, hf]
      have placed := ((insertEntry_perm (make n) b.lists[r]).map Entry.num).append_right rest
      rw [List.map_cons, hn] at placed
      exact placed.trans List.perm_middle.symm
    · rcases peers with own | room
      · refine .inl ?_
        rw [b.takeFree_lists r r hf, if_pos rfl]
        unfold peersOn
        rw [filter_insertEntry (by simp [own])]
      · refine .inr ?_
        have : 7 < b.free.length := of_decide_eq_true room
        rw [hfree]
        rw [hf, List.length_cons] at this
        omega

theorem Board.Accounted.replace {b : Board} (h : b.Accounted) (r : Res) {old new : Entry} (hm : old ∈ b.lists[r])
    (hn : new.num = old.num) (ho : new.own = old.own) : (b.replace r old new).Accounted := by
  obtain ⟨rest, p1, p2⟩ := replaceEntry_perm (new := new) hm (h.nodup_entries r)
  refine h.of_list (r := r) (fun q hq => by rw [Board.replace_lists, if_neg hq]) ?_ (.inl ?_)
  · rw [Board.replace_lists, if_pos rfl, Board.replace_free]
    refine .append_right _ ((p2.map Entry.num).trans ?_)
    rw [List.map_cons, hn]
    exact (p1.map Entry.num).symm
  · rw [Board.replace_lists, if_pos rfl]
    have l1 := (p1.filter fun e => !e.own).length_eq
    have l2 := (p2.filter fun e => !e.own).length_eq
    unfold peersOn
    rw [l1, l2, List.filter_cons, List.filter_cons, ho]
    split <;> simp

theorem applyPair_accounted {a : Announcement} {w : BoardWork} (h : w.board.Accounted) (p : Pair) :
    (applyPair a w p).board.Accounted := by
  unfold applyPair
  dsimp only
  split
  · rename_i hf
    exact h.replace _ (Board.find_some hf).1 rfl rfl
  · split
    · rename_i room
      exact h.takeFree _ _ (fun _ => rfl) (.inr room)
    · exact h

theorem ownInsertPair_accounted {capacity node role key st} {w : BoardWork} (h : w.board.Accounted) (p : Pair) :
    (ownInsertPair capacity node role key st w p).board.Accounted := by
  unfold ownInsertPair
  dsimp only
  split
  · exact h
  split
  · rename_i hf
    exact h.replace _ (Board.findOwn_some hf).1 rfl rfl
  · exact h.takeFree _ _ (fun _ => rfl) (.inl fun _ => rfl)

theorem ownUpdatePair_accounted {role key st} {w : BoardWork} (h : w.board.Accounted) (p : Pair) :
    (ownUpdatePair role key st w p).board.Accounted := by
  unfold ownUpdatePair
  dsimp only
  split
  · rename_i hf
    exact h.replace _ (Board.findOwn_some hf).1 rfl rfl
  · exact h

section
variable {b : Board} (h : b.Accounted)
include h

theorem Board.Accounted.removalPass (owner listed) : (removalPass owner listed b).1.Accounted := by
  refine List.foldlRecOn (motive := fun x : Board × List Res => x.1.Accounted) allRes _ h fun x hx r _ => ?_
  split <;> [exact hx.unlink _ _; exact hx]
theorem Board.Accounted.applyAnnouncement (capacity a) : (applyAnnouncement capacity a b).1.board.Accounted := by
  have removed : (if a.role = .cip then Machine.removalPass a.owner (resourcesOf (listedPairs capacity a.role [] a.pairs)) b
      else (b, [])).1.Accounted := by
    split <;> [exact h.removalPass _ _; exact h]
  have applied := List.foldlRecOn (motive := fun w : BoardWork => w.board.Accounted) (listedPairs capacity a.role [] a.pairs)
    (applyPair a) (b := ⟨_, [], []⟩) removed fun w hw p _ => applyPair_accounted hw p
  exact applied.of_same ((SameEntries.markIncomplete _ _).trans (.holdTimers _))
theorem Board.Accounted.ownInserts (capacity node role key st) (pairs : List Pair) :
    (pairs.foldl (ownInsertPair capacity node role key st) ⟨b, [], []⟩).board.Accounted :=
  List.foldlRecOn (motive := fun w : BoardWork => w.board.Accounted) pairs _ h fun _ hw p _ => ownInsertPair_accounted hw p
theorem Board.Accounted.ownUpdates (role key st) (pairs : List Pair) :
    (pairs.foldl (ownUpdatePair role key st) ⟨b, [], []⟩).board.Accounted :=
  List.foldlRecOn (motive := fun w : BoardWork => w.board.Accounted) pairs _ h fun _ hw p _ => ownUpdatePair_accounted hw p
theorem Board.Accounted.ownRemove (role rs) : (b.ownRemove role rs).Accounted :=
  List.foldlRecOn (motive := fun c : Board => c.Accounted) rs _ h fun _ hc r _ => hc.unlink r _
theorem Board.Accounted.releaseAll (capacity owner role rs) : (b.releaseAll capacity owner role rs).Accounted := by
  refine List.foldlRecOn (motive := fun c : Board => c.Accounted) rs _ h fun c hc r _ => ?_
  split <;> [exact hc; exact hc.unlink r _]
/-- Lives and incomplete timers count, and no entry moves. -/
theorem Board.Accounted.tick : b.tick.Accounted := by
  have lists : ∀ q : Res, b.tick.lists[q] = (b.lists[q]).map fun e => { e with life := e.life.map Life.tick } :=
    fun q => mapAll_getElem _ _ q
  constructor
  · have once := h.once
    unfold Board.numbers at once ⊢
    simpa [lists, Board.tick, Function.comp_def] using once
  · have limit := h.peerLimit
    unfold Board.peers at limit ⊢
    simpa [lists, List.filter_map, Function.comp_def, List.length_flatMap] using limit
end

/-- A board without entries: every number on the free list (R3). -/
theorem Board.accounted_of_empty {b : Board} (h : ∀ q : Res, b.lists[q] = []) (hf : b.free = Board.allFree) : b.Accounted := by
  constructor
  · simp only [Board.numbers, h, hf]
    rw [List.flatMap_eq_nil_iff.2 (by simp)]
    exact .refl _
  · simp only [Board.peers, h]; simp

theorem Board.start_accounted : Board.start.Accounted :=
  Board.accounted_of_empty (fun q => by simp [Board.start]) rfl

/-! ### Every command -/

theorem BoardMove.accounted {s : State} {c : Instr} {b : Board} (m : BoardMove s c b) (h : s.board.Accounted) : b.Accounted := by
  cases m with
  | same => exact h
  | announcement => exact h.applyAnnouncement _ _
  | release => exact (h.releaseAll _ _ _ _).of_same (.holdTimers _)
  | inhibit => exact h.of_same (.setInhibit _ _ _)
  | clear => exact h.of_same (.setInhibit _ _ _)
  | ownInsert => exact (h.ownInserts _ _ _ _ _ _).of_same (.holdTimers _)
  | ownUpdate => exact h.ownUpdates _ _ _ _
  | ownRemove => exact (h.ownRemove _ _).of_same (.holdTimers _)
  | expiry => exact (h.unlink _ _).of_same (.holdTimers _)
  | incomplete => exact h.of_same ⟨rfl, rfl⟩
  | cleared => exact Board.accounted_of_empty (fun q => by simp [Board.clearAll, Board.start]) rfl

/-- The commands that begin afresh leave an empty board, or, where the edge or the phase is not there, the board as it was. -/
theorem exec_afresh_board {c : Instr} (s : State) (hc : startsAfresh c) :
    ∃ u, exec c s = done u ∧ (u.board = .start ∨ u = s) := by
  rcases hc with rfl | rfl | rfl
  · exact ⟨_, rfl, .inl rfl⟩
  · refine ⟨_, rfl, ?_⟩; split <;> [exact .inl rfl; exact .inr rfl]
  · refine ⟨_, rfl, ?_⟩
    split
    · exact .inl (by rw [(State.fixed_eq (State.fixed_judgeHolds _)).2.2.2.1]; rfl)
    · exact .inr rfl

/-- The board after any command. -/
theorem exec_board {c : Instr} {s t : State} (e : exec c s = .next t) :
    t.board = .start ∨ BoardMove s c t.board := by
  by_cases hc : startsAfresh c
  · obtain ⟨u, hu, k⟩ := exec_afresh_board s hc
    rw [hu] at e
    rw [done_next e, State.finish_board]
    rcases k with k | rfl
    · exact .inl k
    · exact .inr (.same c)
  · obtain ⟨u, hu, k⟩ := exec_fixed c s hc
    rw [hu] at e
    rw [done_next e, State.finish_board]
    exact .inr k.board

theorem State.tick_board (s : State) : s.tick.board = s.board.tick ∨ s.tick.board = s.board := by
  unfold State.tick; split <;> [exact .inl rfl; exact .inr rfl]

end Sys2Proof.Machine

open Sys2Proof Sys2Proof.Machine

/-- Settles O8: each operation of the board moves numbers between one list and the free list, and takes an entry for a peer only while
more than seven are free. -/
theorem entryPoolAccountedKept : Obligations.EntryPoolAccountedKept := by
  intro s t hs h
  refine step_keeps (P := fun s => s.board.Accounted) (fun _ _ k => k) (fun c s t k e => ?_) (fun s k => ?_) hs h
  · rcases exec_board e with e | m
    · exact e ▸ Board.start_accounted
    · exact m.accounted k
  · rw [State.finish_board]
    rcases s.tick_board with e | e <;> rw [e]
    · exact k.tick
    · exact k

end

section
/-! What one command can do to the update queue and to the own operations that wait: one inversion over all commands (R8, R9, R33). -/

namespace Sys2Proof.Machine

/-! ### The relations -/

/-- The node's part in the frame on the medium, and the note that hold-off has moved: the part ends, or the note is cleared, or
neither begins. -/
def LinkCalm (k l : Link) : Prop :=
  l.role = .none ∨ l.holdOffMoved = false ∨ k.role ≠ .none ∧ (l.holdOffMoved = true → k.holdOffMoved = true)

/-- Queue and waiting operations stay as they are. -/
structure QueueKept (s t : State) : Prop where
  settings : t.settings = s.settings
  store : t.store = s.store
  updates : t.updates = s.updates
  outstanding : t.adm.outstanding = s.adm.outstanding
  waiting : t.adm.waiting = s.adm.waiting
  urgency : s.adm.urgency ≤ 62 → (∀ i : Fin 4, (s.store.slots[i]).baseUrgency ≤ 62) → t.adm.urgency ≤ 62
  link : LinkCalm s.link t.link

/-- Own operations are placed while the link controller changes. -/
inductive Linking : State → State → Prop where
  | keep {s t : State} (h : QueueKept s t) : Linking s t
  | placing {s t : State} (h : Placing s t) : Linking s t
  | trans {s t u : State} (h : Linking s t) (k : Linking t u) : Linking s u

/-- What happens to the queue: own operations are placed; an operation heard joins the tail, answered before hold-off began or
without it; the head is taken, an own one with its result; a rejoin empties everything. -/
inductive QueueStep : State → State → Prop where
  | linking {s t : State} (h : Linking s t) : QueueStep s t
  | heard {s u : State} {op : Op} (h : Linking s u) (role : u.link.role = .none)
      (answered : s.updates.holdOff = false ∨ s.link.role ≠ .none ∧ s.link.holdOffMoved = true)
      (hall : op.isOwn = false) (fits : ∀ node, op.Fits node) : QueueStep s (u.enqueue op)
  | taken {s : State} {op rest} (head : s.updates.ops = op :: rest) (hall : op.isOwn = false) : QueueStep s s.dequeue
  | ownTaken {s : State} {op rest} (head : s.updates.ops = op :: rest) (own : op.isOwn = true) : QueueStep s s.dequeue.opDone
  | cleared {s : State} : QueueStep s s.rejoined
  | trans {s t u : State} (h : QueueStep s t) (k : QueueStep t u) : QueueStep s u

/-! ### The link controller's operations -/

theorem LinkCalm.refl (l : Link) : LinkCalm l l := by
  by_cases h : l.role = .none
  · exact .inl h
  · exact .inr (.inr ⟨h, id⟩)

theorem Linking.refl (s : State) : Linking s s := .placing (.refl s)

section
variable {s t : State} (h : Linking s t)
include h

theorem Linking.then {u : State} (k : Placing t u) : Linking s u := h.trans (.placing k)
theorem Linking.onLink (f : Link → Link) (hf : LinkCalm t.link (f t.link)) : Linking s (t.onLink f) :=
  h.trans (.keep ⟨rfl, rfl, rfl, rfl, rfl, fun k _ => k, hf⟩)
/-- A change of the counts, the link state or the timers. -/
theorem Linking.sameRole (f : Link → Link) (hr : (f t.link).role = t.link.role)
    (hm : (f t.link).holdOffMoved = t.link.holdOffMoved) : Linking s (t.onLink f) := by
  refine h.onLink f ?_
  have := LinkCalm.refl t.link
  unfold LinkCalm at this ⊢
  rwa [hr, hm]
theorem Linking.enterDetached : Linking s t.enterDetached :=
  (h.sameRole _ rfl rfl).then (Placing.refl _).seqDetached.admDetached
theorem Linking.enterBarred : Linking s t.enterBarred :=
  (h.onLink _ (.inl rfl)).then (((Placing.refl _).onTx _).seqBarred).admDetached
theorem Linking.enterReticent : Linking s t.enterReticent :=
  (h.sameRole _ rfl rfl).then ((Placing.refl _).sticky _ (by decide)).admReticent
theorem Linking.returnEngaged : Linking s t.returnEngaged := (h.sameRole _ rfl rfl).then (Placing.refl _).admEngaged
theorem Linking.judgeLink : Linking s t.judgeLink := by
  unfold State.judgeLink
  split
  · exact h.enterDetached
  split
  · exact h.enterReticent
  split
  · exact h.returnEngaged
  · exact h
theorem Linking.moveCounts (a b) : Linking s (t.moveCounts a b) := by
  unfold State.moveCounts; split <;> [exact h; exact (h.sameRole _ rfl rfl).judgeLink]
theorem Linking.frameOver (a) : Linking s (t.frameOver a) := h.onLink _ (.inl rfl)
theorem Linking.checkFailed (a) : Linking s (t.checkFailed a) := by
  unfold State.checkFailed
  dsimp only
  split
  · exact (h.frameOver a).moveCounts _ _
  · exact (h.frameOver a).moveCounts _ _
  · exact (h.frameOver a).sameRole _ rfl rfl
  · exact h.frameOver a
theorem Linking.tecMove (o) : Linking s (t.tecMove o) := by
  unfold State.tecMove
  split
  · exact h.moveCounts _ _
  · exact h.moveCounts _ _
  · exact h.moveCounts _ _
  · exact h
/-- A change of the record unit alone. -/
theorem Linking.onLog (f) : Linking s (t.onLog f) :=
  h.trans (.keep ⟨rfl, rfl, rfl, rfl, rfl, fun k _ => k, .refl _⟩)
theorem Linking.fragmentDelivered : Linking s t.fragmentDelivered := by
  unfold State.fragmentDelivered
  split
  · exact h
  split
  · exact h.onLog _
  · exact (h.onLog _).then (Placing.refl _).takeRecord.recordTaken
theorem Linking.currentDelivery (x) : Linking s (t.currentDelivery x) := by
  unfold State.currentDelivery
  split
  · split <;> [exact h.then (((Placing.refl _).onTx _).ownDelivered _); exact h]
  · split <;> [exact h.then (((Placing.refl _).onTx _).productDelivered _ _); exact h]
  · exact (h.then ((Placing.refl _).onTx _)).onLog _
  · exact h.fragmentDelivered
theorem Linking.handOutcome (o) : Linking s (t.handOutcome o) := by
  unfold State.handOutcome
  split
  · exact h
  dsimp only
  have moved (f) : Linking s (t.onTx f) := h.then ((Placing.refl _).onTx f)
  split
  · split
    · exact (moved _).then ((Placing.refl _).onTx _)
    · exact ((moved _).then ((Placing.refl _).onTx _)).currentDelivery _
  · exact (moved _).then ((Placing.refl _).onTx _)
  · exact moved _
  · exact moved _
theorem Linking.command (c) : Linking s (t.command c) := by
  unfold State.command
  split
  · exact h.then ((Placing.refl _).roundRequest _ _)
  · exact h.then ((Placing.refl _).cutRound _)
  · exact h.then ((Placing.refl _).resumeRound _)
  · exact h.then (Placing.refl _).makeStatus
end

/-- Own operations leave those of the hall as they are, and what waits in the queue stays before them. -/
theorem Placing.fromHall {s t : State} (h : Placing s t) : t.updates.fromHall = s.updates.fromHall := by
  induction h with
  | quiet k => rw [k.updates]
  | @place u op k =>
    unfold Updates.fromHall
    rw [State.placeOp_ops]
    split <;> simp [k.own]
  | trans _ _ ih ik => exact ik.trans ih
theorem Linking.fromHall {s t : State} (h : Linking s t) : t.updates.fromHall = s.updates.fromHall := by
  induction h with
  | keep k => rw [k.updates]
  | placing k => exact k.fromHall
  | trans _ _ ih ik => exact ik.trans ih
theorem Linking.settings {s t : State} (h : Linking s t) : t.settings = s.settings := by
  induction h with
  | keep k => exact k.settings
  | placing k => exact k.settings
  | trans _ _ ih ik => exact ik.trans ih

/-- A node that has no part in a frame takes none while counts move and own operations are placed. -/
theorem State.role_of_placing {s t : State} (h : Placing s t) : t.link.role = s.link.role := by rw [h.link]

theorem State.judgeLink_role (s : State) : s.judgeLink.link.role = s.link.role := by
  have after {u v : State} (h : Placing u v) (e : u.link.role = s.link.role) : v.link.role = s.link.role :=
    (State.role_of_placing h).trans e
  unfold State.judgeLink
  split
  · exact after (Placing.refl _).seqDetached.admDetached rfl
  split
  · exact after ((Placing.refl _).sticky .reticentEntered (by decide)).admReticent rfl
  split
  · exact after (Placing.refl _).admEngaged rfl
  · rfl
theorem State.moveCounts_role (s : State) (a b) : (s.moveCounts a b).link.role = s.link.role := by
  unfold State.moveCounts; split <;> [rfl; exact State.judgeLink_role _]

/-! ### Frames -/

/-- What an operation of the hall carries fits whatever node hears it (R150). -/
theorem readAnnounce_fits {f : RxFrame} {a : Announcement} (h : readAnnounce f = some a) (node : Nat) :
    (Op.announce a).Fits node := by
  unfold readAnnounce at h
  dsimp only at h
  split at h
  · obtain ⟨st, -, rfl⟩ := Option.map_eq_some_iff.1 h
    refine ⟨rfl, by have := f.low.isLt; simp only; omega, ?_⟩
    simp only [byteAt]
    split
    · rename_i b _; have := b.isLt; omega
    · omega
  · cases h

/-- An operation heard. -/
structure HallOp (op : Op) : Prop where
  hall : op.isOwn = false
  fits : ∀ node, op.Fits node

/-- Handing a frame on places an operation of the hall, or has a block act. -/
theorem State.handOn_cases (s : State) (kind : Nat) (f : RxFrame) :
    (∃ op, HallOp op ∧ kind ≤ 3 ∧ s.handOn kind f = s.enqueue op) ∨ Linking s (s.handOn kind f) := by
  unfold State.handOn State.enqueueIf
  split
  · cases h : readInhibitSet f with
    | none => exact .inr (.refl s)
    | some w => exact .inl ⟨.inhibit w, ⟨rfl, fun _ => trivial⟩, by omega, rfl⟩
  · cases h : readInhibitSet f with
    | none => exact .inr (.refl s)
    | some w => exact .inl ⟨.clear w, ⟨rfl, fun _ => trivial⟩, by omega, rfl⟩
  · cases h : readRelease f with
    | none => exact .inr (.refl s)
    | some op =>
      refine .inl ⟨op, ?_, by omega, rfl⟩
      unfold readRelease at h
      dsimp only at h
      split at h
      · split at h <;> cases h <;> exact ⟨rfl, fun _ => trivial⟩
      · cases h
  · cases h : readAnnounce f with
    | none => exact .inr (.refl s)
    | some a => exact .inl ⟨_, ⟨rfl, readAnnounce_fits h⟩, by omega, rfl⟩
  · split
    · exact .inr ((Linking.refl s).command _)
    · exact .inr (.refl s)
  · exact .inr (.refl s)

/-- A frame that is delivered and passes hold-off was answered without it. -/
theorem State.answered_of_delivered {s : State} {kind : Nat} {f : RxFrame} (hk : kind ≤ 3) (hon : s.onLine = true)
    (hrole : s.link.role = .receiver) (hd : deliveredBy (slotsSeen f.others (s.answerTo kind f)) = true) :
    s.updates.holdOff = false ∨ s.link.role ≠ .none ∧ s.link.holdOffMoved = true := by
  have apply : s.mustApply kind f = true := by simp [State.mustApply, hk]
  have free : s.holdOffAtAnswer f.early = false := by
    cases h : s.holdOffAtAnswer f.early with
    | false => rfl
    | true => simp [State.answerTo, hon, h, apply, slotsSeen, deliveredBy] at hd
  unfold State.holdOffAtAnswer at free
  split at free
  · rename_i h
    rw [Bool.and_eq_true] at h
    exact .inr ⟨by rw [hrole]; decide, h.2⟩
  · exact .inl free

theorem State.receiveFrame_queue (s : State) (kind : Nat) (f : RxFrame) : QueueStep s (s.receiveFrame kind f) := by
  unfold State.receiveFrame
  split
  · rename_i hr
    split
    · dsimp only
      have ended := (Linking.refl s).frameOver (s.answerTo kind f)
      split
      · rename_i hd
        unfold State.deliveredFrame
        split
        · exact .linking ended.enterBarred
        split
        · rename_i hon
          dsimp only
          have lowered : Linking s (s.frameOver (s.answerTo kind f)).recDown := ended.moveCounts _ _
          split
          · rcases State.handOn_cases (s.frameOver (s.answerTo kind f)).recDown kind f with ⟨op, hop, hk, e⟩ | k
            · rw [e]
              exact .heard lowered (State.moveCounts_role _ _ _) (State.answered_of_delivered hk hon hr.2 hd) hop.hall hop.fits
            · exact .linking (lowered.trans k)
          · exact .linking lowered
        · exact .linking ended
      · exact .linking ended
    · exact .linking ((Linking.refl s).checkFailed _)
  · exact .linking (.refl s)

/-! ### The list controller -/

section
variable (s : State)

/-- A change of the board or of the flags leaves the queue as it is. -/
theorem QueueStep.noted (b : Board) (f : Log) : QueueStep s ((s.onBoard fun _ => b).onLog fun _ => f) :=
  .linking (.keep ⟨rfl, rfl, rfl, rfl, rfl, fun k _ => k, .refl _⟩)
theorem QueueStep.then {t u : State} (h : QueueStep s t) (k : Placing t u) : QueueStep s u := h.trans (.linking (.placing k))

/-- An operation of the hall: the board and the flags change, it leaves the queue, and its result is acted on. -/
theorem QueueStep.hallDone {u : State} {op rest touched} (k : QueueKept s u) (head : s.updates.ops = op :: rest)
    (hall : op.isOwn = false) : QueueStep s (u.dequeue.hallResult touched) :=
  ((QueueStep.linking (.keep k)).trans (.taken (k.updates ▸ head) hall)).then _ ((Placing.refl _).hallResult _)

/-- An own operation, likewise. -/
theorem QueueStep.ownDone {u v : State} {op rest} (k : QueueKept s u) (head : s.updates.ops = op :: rest)
    (own : op.isOwn = true) (hv : Placing u.dequeue.opDone v) : QueueStep s v :=
  ((QueueStep.linking (.keep k)).trans (.ownTaken (k.updates ▸ head) own)).then _ hv

/-- A change of the board, with flags that it sets. -/
theorem QueueKept.board (f) : QueueKept s (s.onBoard f) := ⟨rfl, rfl, rfl, rfl, rfl, fun k _ => k, .refl _⟩
theorem QueueKept.flag {t : State} (h : QueueKept s t) (c f) : QueueKept s (t.stickyIf c f) := by
  unfold State.stickyIf
  split
  · exact ⟨h.settings, h.store, h.updates, h.outstanding, h.waiting, h.urgency, h.link⟩
  · exact h

theorem State.carryAnnouncement_queue {a rest} (head : s.updates.ops = .announce a :: rest) :
    QueueStep s (s.carryAnnouncement a) := by
  unfold State.carryAnnouncement
  split
  · exact .hallDone s ⟨rfl, rfl, rfl, rfl, rfl, fun k _ => k, .refl _⟩ head rfl
  · exact .hallDone s (((QueueKept.board s _).flag s _ _).flag s _ _) head rfl
theorem State.carryRelease_queue {o r w rest} (head : s.updates.ops = .release o r w :: rest) :
    QueueStep s (s.carryRelease o r w) := by
  unfold State.carryRelease
  dsimp only
  split
  · exact .hallDone s ⟨rfl, rfl, rfl, rfl, rfl, fun k _ => k, .refl _⟩ head rfl
  · exact .hallDone s (.board s _) head rfl
theorem State.carryInhibit_queue {op rest} (v w) (head : s.updates.ops = op :: rest) (hall : op.isOwn = false) :
    QueueStep s (s.carryInhibit v w) :=
  .hallDone s (u := (s.onBoard fun b => b.setInhibit v (setMembers w)).sticky .inhibitChanged)
    ((QueueKept.board s _).flag s true .inhibitChanged) head hall
theorem State.carryInsert_queue {r p k st rest} (head : s.updates.ops = .ownInsert r p k st :: rest) :
    QueueStep s (s.carryInsert r p k st) :=
  .ownDone s ((QueueKept.board s _).flag s _ _) head rfl ((Placing.refl _).actVerdict _)
/-- The result of an own update is handed back, and what follows places own operations. -/
theorem State.updateResult_placing (st touched) : Placing s.opDone (s.updateResult st touched) := by
  unfold State.updateResult
  dsimp only
  split
  · split
    · exact (Placing.refl _).stopRun _
    · exact ((Placing.refl _).onAdm _ rfl rfl rfl).reportRunning
  · exact (Placing.refl _).actVerdict _
theorem State.carryUpdate_queue {r p k st rest} (head : s.updates.ops = .ownUpdate r p k st :: rest) :
    QueueStep s (s.carryUpdate r p k st) :=
  .ownDone s ((QueueKept.board s _).flag s _ _) head rfl (State.updateResult_placing _ _ _)
theorem State.carryRemove_queue {r rs rest} (head : s.updates.ops = .ownRemove r rs :: rest) :
    QueueStep s (s.carryRemove r rs) :=
  .ownDone s (.board s _) head rfl ((Placing.refl _).actVerdict _)

/-- The outcome of an evaluation that has left the queue: its result is handed back, and what follows places own operations. -/
theorem State.outcome_placing (o : Fit) : Placing (s.onAdm fun a => { a with evalReq := none }).opDone (s.outcome o) := by
  unfold State.outcome
  dsimp only
  refine Placing.requestWanted ?_
  split
  · split <;> [exact (Placing.refl _).actOutcome _ _; exact .refl _]
  · exact .refl _
theorem State.dequeue_onAdm (f : Admission → Admission) : s.dequeue.onAdm f = (s.onAdm f).dequeue := by
  unfold State.dequeue
  dsimp only
  split <;> rename_i h
  · exact (if_pos h).symm
  · exact (if_neg h).symm
theorem State.carryEvaluate_queue {rest} (head : s.updates.ops = .evaluate :: rest) : QueueStep s s.carryEvaluate := by
  have noted : QueueKept s (s.onAdm fun a => { a with evalReq := none }) :=
    ⟨rfl, rfl, rfl, rfl, rfl, fun k _ => k, .refl _⟩
  refine .ownDone s noted head rfl (.trans ?_ ((Placing.refl _).actVerdict _))
  rw [← State.dequeue_onAdm]
  exact State.outcome_placing _ _
end

/-! ### Every command -/

/-- Every command that is no reset and no start-up moves the update queue in these ways. -/
theorem exec_queue (c : Instr) (s : State) (hc : ¬ startsAfresh c) : ∃ u, exec c s = done u ∧ QueueStep s u := by
  have port (f : Port → Port) : QueueStep s (s.onPort f) :=
    .linking (.keep ⟨rfl, rfl, rfl, rfl, rfl, fun k _ => k, .refl _⟩)
  have stays : QueueStep s s := .linking (.refl s)
  have placing {u} (h : Placing s u) : QueueStep s u := .linking (.placing h)
  have loader (f : Loader → Loader) : QueueStep s (s.onLoader f) :=
    .linking (.keep ⟨rfl, rfl, rfl, rfl, rfl, fun k _ => k, .refl _⟩)
  have self := Placing.refl s
  cases c with
  | powerUp => exact absurd (.inl rfl) hc
  | resetRisingEdge => exact absurd (.inr (.inl rfl)) hc
  | startUpComplete => exact absurd (.inr (.inr rfl)) hc
  | resetFallingEdge =>
    refine ⟨_, rfl, ?_⟩
    split
    · exact .linking (.keep ⟨rfl, rfl, rfl, rfl, rfl, fun k _ => k, LinkCalm.refl s.link⟩)
    · exact stays
  | imageReadEnd bytes => refine ⟨_, rfl, ?_⟩; split <;> [exact loader _; exact stays]
  | uptimeTick => refine ⟨_, rfl, ?_⟩; split <;> [exact loader _; exact stays]
  | inputLevelChange x active => exact ⟨_, rfl, port _⟩
  | reqRisingEdge i =>
    refine ⟨_, rfl, ?_⟩
    split <;> [exact (port _).then _ ((Placing.refl _).roundRequest _ _); exact stays]
  | confirmRisingEdge =>
    refine ⟨_, rfl, ?_⟩
    split
    · refine (port fun p => { p with confirm := p.confirm.settled }).then _ ?_
      unfold State.confirmEdge
      split <;> [exact (Placing.refl _).proceed; exact (Placing.refl _).resumeRound _; exact .refl _]
    · exact stays
  | stopChange =>
    refine ⟨_, rfl, ?_⟩
    split
    · refine (port fun p => { p with stop := p.stop.settled }).then _ ?_
      dsimp only
      split
      · exact (((Placing.refl _).onSeq _).stickyIf _ _ (by decide)).cutRound _
      · exact .refl _
    · exact stays
  | prodLineChange i =>
    refine ⟨_, rfl, ?_⟩
    split <;> [exact (port _).then _ (Placing.refl _).judgeHolds; exact stays]
  | samplePeriodExpiry => refine ⟨_, rfl, ?_⟩; split <;> [exact port _; exact stays]
  | sampleReply bytes =>
    refine ⟨_, rfl, ?_⟩
    split
    · split
      · split <;> [exact (port _).then _ ((Placing.refl _).takeSample _); exact stays]
      · exact (port _).then _ (((Placing.refl _).stickyIf _ _ (by decide)).takeSample _)
    · exact stays
  | replyTimeout =>
    refine ⟨_, rfl, ?_⟩
    split <;> [exact (port _).then _ (((Placing.refl _).stickyIf _ _ (by decide)).takeSample _); exact stays]
  | applyAnnouncementCip =>
    refine ⟨_, rfl, ?_⟩
    split
    · split <;> [exact s.carryAnnouncement_queue ‹_›; exact stays]
    · exact stays
  | applyAnnouncementProduct =>
    refine ⟨_, rfl, ?_⟩
    split
    · split <;> [exact s.carryAnnouncement_queue ‹_›; exact stays]
    · exact stays
  | applyRelease => refine ⟨_, rfl, ?_⟩; split <;> [exact s.carryRelease_queue ‹_›; exact stays]
  | inhibitOperation => refine ⟨_, rfl, ?_⟩; split <;> [exact s.carryInhibit_queue _ _ ‹_› rfl; exact stays]
  | clearOperation => refine ⟨_, rfl, ?_⟩; split <;> [exact s.carryInhibit_queue _ _ ‹_› rfl; exact stays]
  | ownInsert => refine ⟨_, rfl, ?_⟩; split <;> [exact s.carryInsert_queue ‹_›; exact stays]
  | ownUpdate => refine ⟨_, rfl, ?_⟩; split <;> [exact s.carryUpdate_queue ‹_›; exact stays]
  | ownRemove => refine ⟨_, rfl, ?_⟩; split <;> [exact s.carryRemove_queue ‹_›; exact stays]
  | evaluate => refine ⟨_, rfl, ?_⟩; split <;> [exact s.carryEvaluate_queue ‹_›; exact stays]
  | entryExpiry n =>
    refine ⟨_, rfl, ?_⟩
    split
    · split
      · exact (QueueStep.linking (.keep ((QueueKept.board s _).flag s _ _))).then _ ((Placing.refl _).hallResult _)
      · exact stays
    · exact stays
  | incompleteTimerExpiry r =>
    refine ⟨_, rfl, ?_⟩
    split
    · exact (QueueStep.linking (.keep (QueueKept.board s _))).then _ ((Placing.refl _).notice _)
    · exact stays
  | agingExpiry =>
    refine ⟨_, rfl, ?_⟩
    split
    · dsimp only
      have cleared := self.onAdm (fun a => { a with aging := 0 }) rfl rfl rfl
      split
      · rename_i low
        refine placing ?_
        unfold State.ageStep
        have raised : Placing s ((s.onAdm fun a => { a with aging := 0 }).onAdm fun a => { a with urgency := a.urgency + 1 }) :=
          cleared.trans (.quiet ⟨rfl, rfl, rfl, rfl, rfl, fun _ _ => low, fun _ k => k, rfl⟩)
        have updated := raised.updateOwn .waiting (by decide)
        dsimp only
        split <;> [exact (updated.placeAnnounce _ _).requestEval _; exact updated.requestEval _]
      · exact placing cleared
    · exact stays
  | learningExpiry =>
    refine ⟨_, rfl, ?_⟩
    split <;> [exact placing (self.onAdm _ rfl rfl rfl).admEngaged; exact stays]
  | settleExpiry =>
    refine ⟨_, rfl, ?_⟩
    split
    · dsimp only
      have stopped := self.onAdm (fun a => { a with settle := .stopped }) rfl rfl rfl
      split <;> [exact placing (stopped.requestEval _); exact placing stopped.yieldStep]
    · exact stays
  | lapseExpiry =>
    refine ⟨_, rfl, ?_⟩
    have flagged := self.sticky .claimLapsed (by decide)
    split
    · split
      · exact placing ((((flagged.placeOwn _).updateOwn _ (by decide)).enter _).reportWaiting.requestEval _)
      · exact placing (flagged.yieldStep.requestEval _)
      · exact stays
    · exact stays
  | refreshExpiry =>
    refine ⟨_, rfl, ?_⟩
    split
    · dsimp only
      have started := self.onAdm (fun a => { a with refresh := .from 0 }) rfl rfl rfl
      split <;> [exact placing (started.placeAnnounce _ _); exact placing (started.placeAnnounce _ _); exact stays]
    · exact stays
  | guardExpiry => refine ⟨_, rfl, ?_⟩; split <;> [exact placing (self.stopRun _); exact stays]
  | productRefreshExpiry i =>
    refine ⟨_, rfl, ?_⟩
    split
    · split <;> [exact placing ((self.onAdm _ rfl rfl rfl).placeProduct _ _); exact stays]
    · exact stays
  | stepTimerExpiry => refine ⟨_, rfl, ?_⟩; split <;> [exact placing (self.suspend _); exact stays]
  | pauseTimerExpiry => refine ⟨_, rfl, ?_⟩; split <;> [exact placing ((self.onSeq _).onVer _); exact stays]
  | suspendTimerExpiry => refine ⟨_, rfl, ?_⟩; split <;> [exact placing (self.closeRound _); exact stays]
  | announce f => exact ⟨_, rfl, s.receiveFrame_queue _ _⟩
  | release f => exact ⟨_, rfl, s.receiveFrame_queue _ _⟩
  | inhibit f => exact ⟨_, rfl, s.receiveFrame_queue _ _⟩
  | clear f => exact ⟨_, rfl, s.receiveFrame_queue _ _⟩
  | request f => exact ⟨_, rfl, s.receiveFrame_queue _ _⟩
  | abort f => exact ⟨_, rfl, s.receiveFrame_queue _ _⟩
  | resume f => exact ⟨_, rfl, s.receiveFrame_queue _ _⟩
  | report f => exact ⟨_, rfl, s.receiveFrame_queue _ _⟩
  | status f => exact ⟨_, rfl, s.receiveFrame_queue _ _⟩
  | record f => exact ⟨_, rfl, s.receiveFrame_queue _ _⟩
  | unknownKind k f => exact ⟨_, rfl, s.receiveFrame_queue _ _⟩
  | commandNotAddressed f => exact ⟨_, rfl, s.receiveFrame_queue _ _⟩
  | receivedFrameCheckFailed => refine ⟨_, rfl, ?_⟩; split <;> [exact .linking ((Linking.refl s).checkFailed _); exact stays]
  | frameBreakOff => refine ⟨_, rfl, ?_⟩; split <;> [exact .linking ((Linking.refl s).checkFailed _); exact stays]
  | arbitrationLost =>
    refine ⟨_, rfl, ?_⟩
    split
    · rename_i sends
      exact .linking (((Linking.refl s).onLink _ (.inr (.inr ⟨by simp_all [State.sending], id⟩))).then ((Placing.refl _).onTx _))
    · exact stays
  | frameAbandon =>
    refine ⟨_, rfl, ?_⟩
    split
    · rename_i sends
      exact .linking ((((Linking.refl s).onLink _ (.inr (.inr ⟨by simp_all [State.sending], id⟩))).then
        ((Placing.refl _).onTx _)).moveCounts _ _)
    · exact stays
  | ownFrameEnd k =>
    refine ⟨_, rfl, ?_⟩
    split <;> [exact .linking ((((Linking.refl s).frameOver _).tecMove _).handOutcome _); exact stays]
  | mediumIdle => refine ⟨_, rfl, ?_⟩; split <;> [exact .linking ((Linking.refl s).sameRole _ rfl rfl); exact stays]
  | peerStartField =>
    refine ⟨_, rfl, ?_⟩
    split <;> [exact .linking ((Linking.refl s).onLink _ (.inr (.inl rfl))); exact stays]
  | holdBackExpiry => refine ⟨_, rfl, ?_⟩; split <;> [exact placing (self.onTx _); exact stays]
  | rejoin =>
    refine ⟨_, rfl, ?_⟩
    split <;> [exact QueueStep.cleared.then _ (Placing.refl _).takeRequest.judgeHolds; exact stays]
  | statusPeriodExpiry =>
    refine ⟨_, rfl, ?_⟩
    split <;> [exact placing (self.onLog _ rfl).makeStatus; exact stays]

/-- The end of a command keeps the queue: a frame begun starts without a note of hold-off. -/
theorem QueueKept.finish (s : State) : QueueKept s s.finish := by
  refine ⟨by simp, by simp, by simp, by simp, by simp, fun k _ => by simpa using k, ?_⟩
  unfold State.finish State.offer
  split
  · split
    · exact .refl _
    · exact .inr (.inl rfl)
  · exact .refl _

/-- A millisecond keeps the queue. -/
theorem QueueKept.tick (s : State) : QueueKept s s.tick := by
  unfold State.tick
  split
  · exact ⟨rfl, rfl, rfl, rfl, rfl, fun k _ => k, LinkCalm.refl s.link⟩
  · exact ⟨rfl, rfl, rfl, rfl, rfl, fun k _ => k, .refl _⟩

end Sys2Proof.Machine
end

section
/-! The bounds of the update queue (R8, R9, R33). -/

namespace Sys2Proof.Machine

/-! ### Counting operations -/

theorem Updates.count (u : Updates) : u.fromHall + u.fromOwn = u.ops.length := by
  unfold Updates.fromHall Updates.fromOwn
  have := (List.filter_append_perm Op.isOwn u.ops).length_eq
  rw [List.length_append] at this
  omega

/-- The operations from the hall and the own ones with one operation more at the tail. -/
theorem Updates.counts_snoc {u v : Updates} {op : Op} (h : v.ops = u.ops ++ [op]) :
    v.fromHall = u.fromHall + (if op.isOwn then 0 else 1) ∧ v.fromOwn = u.fromOwn + (if op.isOwn then 1 else 0) := by
  unfold Updates.fromHall Updates.fromOwn
  rw [h]
  cases e : op.isOwn <;> simp [e]

/-- The operations from the hall and the own ones with the head taken. -/
theorem Updates.counts_tail {u v : Updates} {op rest} (h : u.ops = op :: rest) (k : v.ops = u.ops.tail) :
    u.fromHall = v.fromHall + (if op.isOwn then 0 else 1) ∧ u.fromOwn = v.fromOwn + (if op.isOwn then 1 else 0) := by
  unfold Updates.fromHall Updates.fromOwn
  rw [k, h]
  cases e : op.isOwn <;> simp [e]

/-! ### Joining and leaving the queue -/

/-- What an operation that joins does to hold-off and its note (R9). -/
theorem State.enqueue_holdOff (s : State) (op : Op) :
    (s.enqueue op).updates.holdOff = (s.updates.holdOff || decide (11 ≤ s.updates.ops.length)) ∧
    (s.enqueue op).link = { s.link with holdOffMoved :=
      s.link.holdOffMoved || (decide (11 ≤ s.updates.ops.length) && !s.updates.holdOff) } := by
  unfold State.enqueue
  have e : (s.onUpdates fun u => { u with ops := u.ops ++ [op] }).updates.ops.length = s.updates.ops.length + 1 := by simp
  dsimp only
  rw [e, Config.holdOffOn]
  by_cases h : 12 ≤ s.updates.ops.length + 1 ∧ s.updates.holdOff = false
  · rw [if_pos h]
    have : 11 ≤ s.updates.ops.length := by omega
    constructor <;> simp [State.sticky, this, h.2]
  · rw [if_neg h]
    rcases Bool.eq_false_or_eq_true s.updates.holdOff with k | k
    · constructor <;> simp [k]
    · have : ¬ 11 ≤ s.updates.ops.length := fun n => h ⟨by omega, k⟩
      constructor <;> simp [k, this]

/-- What the head's leaving does to hold-off and its note (R9). -/
theorem State.dequeue_holdOff (s : State) :
    s.dequeue.updates.holdOff = (s.updates.holdOff && decide (8 < s.updates.ops.length - 1)) ∧
    s.dequeue.link = { s.link with holdOffMoved :=
      s.link.holdOffMoved || (s.updates.holdOff && decide (s.updates.ops.length - 1 ≤ 8)) } := by
  unfold State.dequeue
  have e : (s.onUpdates fun u => { u with ops := u.ops.tail }).updates.ops.length = s.updates.ops.length - 1 := by simp
  dsimp only
  rw [e, Config.holdOffOff]
  by_cases h : s.updates.ops.length - 1 ≤ 8 ∧ s.updates.holdOff = true
  · rw [if_pos h]
    have : ¬ 8 < s.updates.ops.length - 1 := by omega
    constructor <;> simp [h.1, h.2]
  · rw [if_neg h]
    rcases Bool.eq_false_or_eq_true s.updates.holdOff with k | k
    · have : 8 < s.updates.ops.length - 1 := by
        by_contra n; exact h ⟨by omega, k⟩
      have : ¬ s.updates.ops.length - 1 ≤ 8 := by omega
      constructor <;> simp only [k, this, Bool.true_and, decide_false, Bool.or_false] <;> simp [*]
    · constructor <;> simp [k]

/-! ### The bounds -/

/-- Without hold-off fewer than 12 operations wait. -/
theorem Updates.HoldOffFits.short {u : Updates} (h : u.HoldOffFits) (k : u.holdOff = false) : u.ops.length ≤ 11 := by
  by_contra n
  have := h.1 (by omega)
  rw [k] at this
  cases this

theorem State.QueueBounded.keep {s t : State} (h : s.QueueBounded) (k : QueueKept s t) : t.QueueBounded := by
  have e := k.updates
  refine ⟨e ▸ h.hall, ?_, k.outstanding ▸ h.outstanding, ?_, k.waiting ▸ h.waitingOwn, e ▸ h.holdOff, ?_⟩
  · rw [e, k.outstanding]; exact h.own
  · rw [k.waiting, k.outstanding]; exact h.waiting
  · intro role moved held
    rw [e] at held ⊢
    rcases k.link with n | n | ⟨n, m⟩
    · exact absurd n role
    · rw [n] at moved; cases moved
    · exact h.answered n (m moved) held

/-- Hold-off fits the queue's length after an operation joined. -/
theorem State.enqueue_holdOffFits {s : State} (h : s.updates.HoldOffFits) (op : Op) : (s.enqueue op).updates.HoldOffFits := by
  obtain ⟨e, -⟩ := s.enqueue_holdOff op
  unfold Updates.HoldOffFits
  rw [e, State.enqueue_ops, List.length_append, List.length_singleton]
  refine ⟨fun n => ?_, fun n => ?_⟩
  · have : 11 ≤ s.updates.ops.length := by omega
    simp [this]
  · have k := h.2 (by omega)
    have : ¬ 11 ≤ s.updates.ops.length := by omega
    simp [k, this]

/-- The bounds that do not look at the admission unit. -/
structure State.HallBounded (s : State) : Prop where
  hall : s.updates.fromHall ≤ 12
  holdOff : s.updates.HoldOffFits
  answered : s.link.role ≠ .none → s.link.holdOffMoved = true → s.updates.holdOff = true → s.updates.fromHall ≤ 11

theorem State.QueueBounded.hallBounded {s : State} (h : s.QueueBounded) : s.HallBounded := ⟨h.hall, h.holdOff, h.answered⟩

/-- An own operation joins: hold-off begins only on 11 operations, so the bound after an early answer stands. -/
theorem State.HallBounded.enqueueOwn {s : State} {op : Op} (h : s.HallBounded) (own : op.isOwn = true) :
    (s.enqueue op).HallBounded := by
  obtain ⟨e1, e2⟩ := s.enqueue_holdOff op
  have c := (Updates.counts_snoc (s.enqueue_ops op)).1
  rw [own, if_pos rfl, Nat.add_zero] at c
  refine ⟨c ▸ h.hall, State.enqueue_holdOffFits h.holdOff op, fun role moved held => ?_⟩
  rw [c]
  rcases Bool.eq_false_or_eq_true s.updates.holdOff with k | k
  · rw [e2] at moved role
    exact h.answered role (by simpa [k] using moved) k
  · have := h.holdOff.short k
    have := s.updates.count
    omega

/-- The head leaves: hold-off ends at 8 or fewer. -/
theorem State.HallBounded.dequeue {s : State} (h : s.HallBounded) {op rest} (head : s.updates.ops = op :: rest) :
    s.dequeue.HallBounded := by
  obtain ⟨e1, e2⟩ := s.dequeue_holdOff
  have c := (Updates.counts_tail head s.dequeue_ops).1
  have hall := h.hall
  refine ⟨by omega, ?_, fun role moved held => ?_⟩
  · unfold Updates.HoldOffFits
    rw [e1, State.dequeue_ops, List.length_tail]
    refine ⟨fun n => ?_, fun n => ?_⟩
    · have on := h.holdOff.1 (by omega)
      have : 8 < s.updates.ops.length - 1 := by omega
      simp only [on, this, decide_true, Bool.and_self]
    · have : ¬ 8 < s.updates.ops.length - 1 := by omega
      simp only [this, decide_false, Bool.and_false]
  · rw [e1, Bool.and_eq_true, decide_eq_true_eq] at held
    rw [e2] at role moved
    have none : ¬ s.updates.ops.length - 1 ≤ 8 := by omega
    have := h.answered role (by simpa only [none, decide_false, Bool.and_false, Bool.or_false] using moved) held.1
    omega

/-- Every part of the bounds but those on the hall's operations. -/
theorem State.HallBounded.queueBounded {t : State} (h : t.HallBounded) (own : t.updates.fromOwn = t.adm.outstanding)
    (outstanding : t.adm.outstanding ≤ 2) (waiting : t.adm.waiting ≠ [] → t.adm.outstanding = 2)
    (waitingOwn : ∀ op ∈ t.adm.waiting, op.isOwn = true) : t.QueueBounded :=
  ⟨h.hall, own, outstanding, waiting, waitingOwn, h.holdOff, h.answered⟩

theorem State.QueueBounded.placeOp {s : State} {op : Op} (h : s.QueueBounded) (own : op.isOwn = true) :
    (s.placeOp op).QueueBounded := by
  have adm := s.placeOp_adm op
  have ops := s.placeOp_ops op
  by_cases room : s.adm.outstanding < 2
  · rw [if_pos room] at adm ops
    have c := (Updates.counts_snoc ops).2
    rw [own, if_pos rfl] at c
    have bounded : (s.placeOp op).HallBounded := by
      unfold State.placeOp
      rw [if_pos (show s.adm.outstanding < Config.outstandingMax from room)]
      exact State.HallBounded.enqueueOwn ⟨h.hall, h.holdOff, h.answered⟩ own
    have none : s.adm.waiting = [] := by
      by_contra n; have := h.waiting n; omega
    refine bounded.queueBounded ?_ ?_ ?_ ?_ <;> rw [adm]
    · rw [c, h.own]
    · exact room
    · exact fun n => absurd none n
    · exact h.waitingOwn
  · rw [if_neg room] at adm
    have kept : (s.placeOp op).updates = s.updates ∧ (s.placeOp op).link = s.link := by
      unfold State.placeOp
      rw [if_neg (show ¬ s.adm.outstanding < Config.outstandingMax from room)]
      exact ⟨rfl, rfl⟩
    have full : s.adm.outstanding = 2 := by have := h.outstanding; omega
    refine State.HallBounded.queueBounded ⟨?_, ?_, ?_⟩ ?_ ?_ ?_ ?_
    · rw [kept.1]; exact h.hall
    · rw [kept.1]; exact h.holdOff
    · rw [kept.1, kept.2]; exact h.answered
    · rw [kept.1, adm]; exact h.own
    · rw [adm]; exact h.outstanding
    · rw [adm]; exact fun _ => full
    · rw [adm]
      intro o ho
      rcases List.mem_append.1 ho with k | k
      · exact h.waitingOwn o k
      · rw [List.mem_singleton.1 k]; exact own

theorem State.QueueBounded.placing {s t : State} (k : Placing s t) : s.QueueBounded → t.QueueBounded := by
  induction k with
  | quiet k => exact fun h => h.keep ⟨(State.fixed_eq k.fixed).2.1, (State.fixed_eq k.fixed).2.2.1, k.updates, k.outstanding,
      k.waiting, k.urgency, k.link ▸ .refl _⟩
  | place k => exact fun h => h.placeOp k.own
  | trans _ _ ih ik => exact fun h => ik (ih h)

theorem State.QueueBounded.linking {s t : State} (k : Linking s t) : s.QueueBounded → t.QueueBounded := by
  induction k with
  | keep k => exact fun h => h.keep k
  | placing k => exact .placing k
  | trans _ _ ih ik => exact fun h => ik (ih h)

/-- An own operation's result: one that waits takes its place, or one fewer is outstanding. -/
theorem State.QueueBounded.ownTaken {s : State} {op rest} (h : s.QueueBounded) (head : s.updates.ops = op :: rest)
    (own : op.isOwn = true) : s.dequeue.opDone.QueueBounded := by
  have out := h.hallBounded.dequeue head
  have c := (Updates.counts_tail head s.dequeue_ops).2
  rw [own, if_pos rfl] at c
  have adm := s.dequeue.opDone_adm
  have ops := s.dequeue.opDone_ops
  rw [State.dequeue_adm] at adm ops
  have := h.own
  have := h.outstanding
  cases w : s.adm.waiting with
  | nil =>
    rw [w] at adm ops
    have e : s.dequeue.opDone = s.dequeue.onAdm fun a => { a with outstanding := a.outstanding - 1 } := by
      unfold State.opDone; rw [State.dequeue_adm, w]
    refine State.HallBounded.queueBounded (e ▸ ⟨out.hall, out.holdOff, out.answered⟩) ?_ ?_ ?_ ?_ <;> rw [adm]
    · rw [e]
      show s.dequeue.updates.fromOwn = s.adm.outstanding - 1
      omega
    · show s.adm.outstanding - 1 ≤ 2
      omega
    · exact fun n => absurd w n
    · exact h.waitingOwn
  | cons next more =>
    rw [w] at adm ops
    have e : s.dequeue.opDone = (s.dequeue.onAdm fun a => { a with waiting := more }).enqueue next := by
      unfold State.opDone; rw [State.dequeue_adm, w]
    have nextOwn := h.waitingOwn next (by simp [w])
    have full := h.waiting (by simp [w])
    have joined : (s.dequeue.onAdm fun a => { a with waiting := more }).HallBounded := ⟨out.hall, out.holdOff, out.answered⟩
    refine State.HallBounded.queueBounded (e ▸ joined.enqueueOwn nextOwn) ?_ ?_ ?_ ?_ <;> rw [adm]
    · have c2 := (Updates.counts_snoc (u := s.dequeue.updates) ops).2
      rw [nextOwn, if_pos rfl] at c2
      rw [c2]
      show _ = s.adm.outstanding
      omega
    · exact h.outstanding
    · exact fun _ => full
    · exact fun o ho => h.waitingOwn o (by rw [w]; exact List.mem_cons_of_mem _ ho)

/-- An operation of the hall leaves. -/
theorem State.QueueBounded.taken {s : State} {op rest} (h : s.QueueBounded) (head : s.updates.ops = op :: rest)
    (hall : op.isOwn = false) : s.dequeue.QueueBounded := by
  have c := (Updates.counts_tail head s.dequeue_ops).2
  rw [hall, if_neg (by decide), Nat.add_zero] at c
  refine (h.hallBounded.dequeue head).queueBounded ?_ ?_ ?_ ?_ <;> rw [State.dequeue_adm]
  · rw [← c]; exact h.own
  · exact h.outstanding
  · exact h.waiting
  · exact h.waitingOwn

/-- An operation heard: it was answered without hold-off, or before it began on at most 11 of the hall's. -/
theorem State.QueueBounded.heard {s u : State} {op : Op} (h : s.QueueBounded) (k : Linking s u) (role : u.link.role = .none)
    (answered : s.updates.holdOff = false ∨ s.link.role ≠ .none ∧ s.link.holdOffMoved = true) (hall : op.isOwn = false) :
    (u.enqueue op).QueueBounded := by
  have g : u.QueueBounded := h.linking k
  have room : u.updates.fromHall ≤ 11 := by
    rw [k.fromHall]
    rcases Bool.eq_false_or_eq_true s.updates.holdOff with on | off
    · rcases answered with n | ⟨n, m⟩
      · rw [on] at n; cases n
      · exact h.answered n m on
    · have := h.holdOff.short off
      have := s.updates.count
      omega
  obtain ⟨c1, c2⟩ := Updates.counts_snoc (u.enqueue_ops op)
  rw [hall, if_neg (by decide)] at c1 c2
  have none : (u.enqueue op).link.role = .none := by rw [(u.enqueue_holdOff op).2]; exact role
  refine State.HallBounded.queueBounded ⟨by omega, State.enqueue_holdOffFits g.holdOff op, fun n => absurd none n⟩ ?_ ?_ ?_ ?_ <;>
    rw [State.enqueue_adm]
  · rw [c2]; exact g.own
  · exact g.outstanding
  · exact g.waiting
  · exact g.waitingOwn

/-- An empty queue with nothing outstanding. -/
theorem State.queueBounded_of_empty {s : State} (h : s.updates = ⟨[], false⟩) (k : s.adm.outstanding = 0) (w : s.adm.waiting = []) :
    s.QueueBounded := by
  refine State.HallBounded.queueBounded ⟨?_, ?_, ?_⟩ ?_ ?_ ?_ ?_
  all_goals simp [h, k, w, Updates.fromHall, Updates.fromOwn, Updates.HoldOffFits]

theorem State.QueueBounded.step {s t : State} (k : QueueStep s t) : s.QueueBounded → t.QueueBounded := by
  induction k with
  | linking k => exact .linking k
  | heard k role answered hall _ => exact fun h => h.heard k role answered hall
  | taken head hall => exact fun h => h.taken head hall
  | ownTaken head own => exact fun h => h.ownTaken head own
  | cleared => exact fun _ => State.queueBounded_of_empty rfl rfl rfl
  | trans _ _ ih ik => exact fun h => ik (ih h)

/-! ### Every command -/

/-- The commands that begin afresh leave the queue empty, but for the inserts of the holds, or do nothing. -/
theorem State.queueBounded_exec {c : Instr} {s t : State} (h : s.QueueBounded) (e : exec c s = .next t) : t.QueueBounded := by
  have : ∃ u, exec c s = done u ∧ u.QueueBounded := by
    by_cases hc : startsAfresh c
    · rcases hc with rfl | rfl | rfl
      · exact ⟨_, rfl, State.queueBounded_of_empty rfl rfl rfl⟩
      · refine ⟨_, rfl, ?_⟩; split <;> [exact State.queueBounded_of_empty rfl rfl rfl; exact h]
      · refine ⟨_, rfl, ?_⟩
        split
        · exact .placing (Placing.refl _).judgeHolds (State.queueBounded_of_empty rfl rfl rfl)
        · exact h
    · obtain ⟨u, hu, k⟩ := exec_queue c s hc
      exact ⟨u, hu, .step k h⟩
  obtain ⟨u, hu, k⟩ := this
  rw [hu] at e
  rw [done_next e]
  exact k.keep (.finish u)

end Sys2Proof.Machine

open Sys2Proof Sys2Proof.Machine

/-- Settles O10: own operations and those of the hall are counted apart; the latter join only while hold-off is off, or after an answer
given before it began. -/
theorem updateQueueBoundedKept : Obligations.UpdateQueueBoundedKept := by
  intro s t hs h
  have k : t.QueueBounded := step_keeps (P := State.QueueBounded)
    (fun s rest k => ⟨k.hall, k.own, k.outstanding, k.waiting, k.waitingOwn, k.holdOff, k.answered⟩)
    (fun _ _ _ k e => State.queueBounded_exec k e) (fun s k => (k.keep (.tick s)).keep (.finish _)) hs h
  have := t.updates.count
  have := k.hall
  have := k.own
  have := k.outstanding
  exact ⟨k, by omega⟩

end

section
/-! The lane board stays ranked: ascending keys, one entry for each owner and role, and nothing on an absent resource (R1, R2, R4, R27). -/

namespace Sys2Proof.Machine

/-! ### One list -/

/-- Among fitting entries the key tells owner and role (R2, R27). -/
theorem Entry.Fits.key_inj {node : Nat} {x y : Entry} (hx : x.Fits node) (hy : y.Fits node) (h : x.key = y.key) :
    x.owner = y.owner ∧ x.role = y.role := by
  cases rx : x.role <;> cases ry : y.role
  · exact ⟨by rw [← (hx.cip rx).2.2, ← (hy.cip ry).2.2, h], rfl⟩
  · have := hx.cip rx; have := hy.product ry; omega
  · have := hx.product rx; have := hy.cip ry; omega
  · exact ⟨by rw [← (hx.product rx).1, ← (hy.product ry).1, h], rfl⟩

/-- A list in rank order whose entries fit the node (R2, R4). -/
structure RankedList (node : Nat) (l : List Entry) : Prop where
  ascending : l.Pairwise Entry.Before
  entries : ∀ e ∈ l, e.Fits node

section
variable {node : Nat} {l : List Entry} (h : RankedList node l)
include h

/-- Owner and role name one entry of the list. -/
theorem RankedList.unique {x y : Entry} (hx : x ∈ l) (hy : y ∈ l) (ho : x.owner = y.owner) (hr : x.role = y.role) : x = y := by
  have named := h.ascending.imp (S := fun a b : Entry => a.owner = b.owner → a.role = b.role → a = b)
    fun k ho hr => absurd ⟨ho, hr⟩ k.2
  have flipped := h.ascending.imp (S := fun a b : Entry => b.owner = a.owner → b.role = a.role → b = a)
    fun k ho hr => absurd ⟨ho.symm, hr.symm⟩ k.2
  exact named.forall_of_forall_of_flip (fun _ _ _ _ => rfl) flipped hx hy ho hr

theorem RankedList.filter (p) : RankedList node (l.filter p) :=
  ⟨h.ascending.filter p, fun e he => h.entries e (List.mem_of_mem_filter he)⟩

/-- An entry of an owner and role that the list does not have takes its place by its key (R4). -/
theorem RankedList.insert {e : Entry} (he : e.Fits node) (new : ∀ x ∈ l, ¬(x.owner = e.owner ∧ x.role = e.role)) :
    RankedList node (insertEntry e l) := by
  refine ⟨?_, fun x hx => (mem_insertEntry.1 hx).elim (fun k => k ▸ he) (h.entries x)⟩
  obtain ⟨asc, fits⟩ := h
  induction l with
  | nil => exact List.pairwise_singleton _ _
  | cons x xs ih =>
    obtain ⟨hx, hxs⟩ := List.pairwise_cons.1 asc
    have ne : x.key ≠ e.key := fun k => new x (by simp) ((fits x (by simp)).key_inj he k)
    unfold insertEntry
    split
    · rename_i lt
      refine List.pairwise_cons.2 ⟨fun y hy => ?_,
        ih (fun y hy => new y (List.mem_cons_of_mem _ hy)) hxs fun y hy => fits y (List.mem_cons_of_mem _ hy)⟩
      rcases mem_insertEntry.1 hy with rfl | hy
      · exact ⟨lt, new x (by simp)⟩
      · exact hx y hy
    · rename_i ge
      refine List.pairwise_cons.2 ⟨fun y hy => ⟨?_, fun k => new y hy ⟨k.1.symm, k.2.symm⟩⟩, asc⟩
      rcases List.mem_cons.1 hy with rfl | hy
      · omega
      · have := (hx y hy).1; omega

/-- An entry takes new content under its owner and role (R4). -/
theorem RankedList.replace {old new : Entry} (hm : old ∈ l) (ho : new.owner = old.owner) (hr : new.role = old.role)
    (hf : new.Fits node) : RankedList node (replaceEntry old new l) := by
  unfold replaceEntry
  split
  · rename_i hk
    refine ⟨List.pairwise_map.2 (h.ascending.imp fun {x y} k => ?_), fun e he => ?_⟩
    · have same (z : Entry) : (if z = old then new else z).key = z.key ∧ (if z = old then new else z).owner = z.owner
          ∧ (if z = old then new else z).role = z.role := by
        split
        · rename_i e; rw [e]; exact ⟨hk.symm, ho, hr⟩
        · exact ⟨rfl, rfl, rfl⟩
      obtain ⟨x1, x2, x3⟩ := same x
      obtain ⟨y1, y2, y3⟩ := same y
      unfold Entry.Before at k ⊢
      rwa [x1, x2, x3, y1, y2, y3]
    · obtain ⟨x, hx, rfl⟩ := List.mem_map.1 he
      split <;> [exact hf; exact h.entries x hx]
  · refine (h.filter _).insert hf fun x hx => ?_
    rw [List.mem_filter, decide_eq_true_eq] at hx
    rw [ho, hr]
    exact fun k => hx.2 (h.unique hx.1 hm k.1 k.2)
end

/-! ### The board -/

/-- Every list is ranked, and an absent resource has none (R1, R4). -/
structure Board.Orderly (c : Settings) (b : Board) : Prop where
  ranked : ∀ r : Res, RankedList c.node b.lists[r]
  absent : ∀ r : Res, c.capacity[r] = 0 → b.lists[r] = []

section
variable {c : Settings} {b : Board} (h : b.Orderly c)
include h

theorem Board.Orderly.of_same {a : Board} (k : SameEntries b a) : a.Orderly c := by
  refine ⟨fun r => ?_, fun r hr => ?_⟩ <;> rw [k.lists]
  · exact h.ranked r
  · exact h.absent r hr
theorem Board.Orderly.unlink (r p) : (b.unlink r p).Orderly c := by
  refine ⟨fun q => ?_, fun q hq => ?_⟩ <;> rw [Board.unlink_lists]
  · split <;> [exact (h.ranked r).filter _; exact h.ranked q]
  · split
    · rename_i e; rw [h.absent r (e ▸ hq)]; rfl
    · exact h.absent q hq
theorem Board.Orderly.takeFree {r : Res} (hr : c.capacity[r] ≠ 0) (make : Fin 64 → Entry) (hf : ∀ n, (make n).Fits c.node)
    (new : ∀ n, ∀ x ∈ b.lists[r], ¬(x.owner = (make n).owner ∧ x.role = (make n).role)) : (b.takeFree r make).Orderly c := by
  cases e : b.free with
  | nil => unfold Board.takeFree; rw [e]; exact h
  | cons n rest =>
    refine ⟨fun q => ?_, fun q hq => ?_⟩ <;> rw [b.takeFree_lists r q e]
    · split <;> [exact (h.ranked r).insert (hf n) (new n); exact h.ranked q]
    · rw [if_neg (by rintro rfl; exact hr hq)]; exact h.absent q hq
theorem Board.Orderly.replace {r : Res} {old new : Entry} (hm : old ∈ b.lists[r]) (ho : new.owner = old.owner)
    (hr : new.role = old.role) (hf : new.Fits c.node) : (b.replace r old new).Orderly c := by
  refine ⟨fun q => ?_, fun q hq => ?_⟩ <;> rw [Board.replace_lists]
  · split <;> [exact (h.ranked r).replace hm ho hr hf; exact h.ranked q]
  · split
    · rename_i e; rw [h.absent r (e ▸ hq)] at hm; cases hm
    · exact h.absent q hq
/-- On a ranked board the own entries are those of the node's number. -/
theorem Board.Orderly.own_iff {r : Res} {e : Entry} (he : e ∈ b.lists[r]) : e.own = true ↔ e.owner = c.node :=
  ((h.ranked r).entries e he).own
end

/-! ### What an announcement carries -/

/-- An announcement that R10 does not discard. -/
structure Announcement.Taken (node : Nat) (a : Announcement) : Prop where
  owner : a.owner ≠ 0 ∧ a.owner ≠ node
  held : a.state = .held → a.key ≤ 63
  other : a.state ≠ .held → 65 ≤ a.key
  life : a.life ≠ 0

theorem Announcement.taken_of {node : Nat} {a : Announcement} (h : a.discarded node = false) : a.Taken node := by
  simp only [Announcement.discarded, Bool.or_eq_false_iff, decide_eq_false_iff_not] at h
  obtain ⟨⟨⟨⟨h1, h2⟩, h3⟩, h4⟩, -⟩ := h
  exact ⟨by simpa [not_or] using h1, fun k => by_contra fun n => h2 ⟨k, by omega⟩, fun k => by_contra fun n => h3 ⟨k, by omega⟩,
    h4⟩

theorem Announcement.role_eq_product {a : Announcement} : a.role = .product ↔ a.state = .held := by
  unfold Announcement.role; split <;> simp [*]

/-- An entry of an announcement's owner and role, with what the announcement says, fits (R2, R6). -/
theorem Announcement.fits {node : Nat} {a : Announcement} (h : a.Taken node) (k : (Op.announce a).Fits node) (n : Fin 64)
    (d : Option Nat) :
    ({ num := n, owner := a.owner, role := a.role, demand := d, key := a.key, state := a.state, life := some a.lifeSet,
       own := false } : Entry).Fits node := by
  obtain ⟨owner, key, life⟩ := k
  constructor
  · intro hr
    have : a.state ≠ .held := fun e => by rw [Announcement.role_eq_product.2 e] at hr; cases hr
    exact ⟨h.other this, key, owner.symm⟩
  · intro hr
    have := h.held (Announcement.role_eq_product.1 hr)
    simp only
    omega
  · exact Announcement.role_eq_product.symm
  · simp [h.owner.2]
  · simp
  · intro l hl
    simp only [Option.mem_def, Option.some.injEq] at hl
    subst hl
    unfold Announcement.lifeSet Config.claimLifeBonus
    simp only
    split <;> omega

theorem mem_listedPairs {capacity : Vector Nat 16} {role : Role} {pairs : List Claim} {p : Pair} :
    ∀ {seen}, p ∈ listedPairs capacity role seen pairs → capacity[p.res] ≠ 0 := by
  induction pairs with
  | nil => intro seen hp; cases hp
  | cons c rest ih =>
    intro seen hp
    unfold listedPairs at hp
    dsimp only at hp
    split at hp
    · split at hp
      · exact ih hp
      · rename_i hc k
        rcases List.mem_cons.1 hp with rfl | hp
        · exact fun e => k (.inl e)
        · exact ih hp
    · exact ih hp

section
variable {c : Settings}

theorem applyPair_orderly {a : Announcement} (h : a.Taken c.node) (k : (Op.announce a).Fits c.node) {w : BoardWork}
    (hw : w.board.Orderly c) {p : Pair} (hp : c.capacity[p.res] ≠ 0) : (applyPair a w p).board.Orderly c := by
  unfold applyPair
  dsimp only
  split
  · rename_i e hf
    obtain ⟨hm, ho, hr⟩ := Board.find_some hf
    have notOwn : e.own = false := by
      rw [← Bool.not_eq_true, hw.own_iff hm, ho]; exact h.owner.2
    refine hw.replace hm rfl rfl ?_
    have := a.fits h k e.num (if a.role = .cip then some p.demand else none)
    rw [← ho, ← notOwn] at this
    rw [← hr] at this ⊢
    exact this
  · rename_i hf
    split
    · exact hw.takeFree hp _ (fun n => a.fits h k n _) fun n => Board.find_none hf
    · exact hw

theorem removalPass_orderly {b : Board} (h : b.Orderly c) (owner listed) : (removalPass owner listed b).1.Orderly c := by
  refine List.foldlRecOn (motive := fun x : Board × List Res => x.1.Orderly c) allRes _ h fun x hx r _ => ?_
  split <;> [exact hx.unlink _ _; exact hx]

theorem applyAnnouncement_orderly {b : Board} (h : b.Orderly c) {a : Announcement} (ha : a.Taken c.node)
    (k : (Op.announce a).Fits c.node) : (applyAnnouncement c.capacity a b).1.board.Orderly c := by
  have removed : (if a.role = .cip then removalPass a.owner (resourcesOf (listedPairs c.capacity a.role [] a.pairs)) b
      else (b, [])).1.Orderly c := by
    split <;> [exact removalPass_orderly h _ _; exact h]
  have applied := List.foldlRecOn (motive := fun w : BoardWork => w.board.Orderly c) (listedPairs c.capacity a.role [] a.pairs)
    (applyPair a) (b := ⟨_, [], []⟩) removed fun w hw p hp => applyPair_orderly ha k hw (mem_listedPairs hp)
  exact applied.of_same ((SameEntries.markIncomplete _ _).trans (.holdTimers _))

/-- An own entry with a key and state that the node may give it fits (R27, R53). -/
theorem ownFits.entry {node key : Nat} {role : Role} {st : EntryState} (h : ownFits node role key st) (h63 : node ≤ 63)
    (n : Fin 64) (d : Option Nat) :
    ({ num := n, owner := node, role := role, demand := d, key := key, state := st, life := none, own := true } : Entry).Fits
      node := by
  cases role with
  | cip =>
    obtain ⟨h1, h2, h3, h4⟩ := h
    exact ⟨fun _ => ⟨h1, h2, h3⟩, nofun, by simp [h4], by simp, by simp, nofun⟩
  | product =>
    obtain ⟨h1, h2⟩ := h
    exact ⟨nofun, fun _ => ⟨h1, h63⟩, by simp [h2], by simp, by simp, nofun⟩

/-- An own entry of a ranked board takes new content that the node may give it. -/
theorem ownFits.updated {b : Board} (hb : b.Orderly c) {r : Res} {role key st} (h : ownFits c.node role key st)
    (h63 : c.node ≤ 63) {e : Entry} (he : b.findOwn r role = some e) (d : Option Nat) :
    ({ e with state := st, demand := d, key := key } : Entry).Fits c.node := by
  obtain ⟨hm, ho, hr⟩ := Board.findOwn_some he
  have owner : e.owner = c.node := (hb.own_iff hm).1 ho
  have life : e.life = none := (((hb.ranked r).entries e hm).life).1 ho
  have := h.entry h63 e.num d
  rw [← owner, ← hr, ← life, ← ho] at this
  rw [← owner]
  exact this

/-- No entry of the node's number and a role is on a list where no own entry of the role is. -/
theorem Board.Orderly.no_own {b : Board} (hb : b.Orderly c) {r : Res} {role} (h : b.findOwn r role = none) :
    ∀ x ∈ b.lists[r], ¬(x.owner = c.node ∧ x.role = role) :=
  fun x hx k => Board.findOwn_none h x hx ⟨(hb.own_iff hx).2 k.1, k.2⟩

theorem ownInsertPair_orderly {role key st} (h : ownFits c.node role key st) (h63 : c.node ≤ 63) {w : BoardWork}
    (hw : w.board.Orderly c) (p : Pair) : (ownInsertPair c.capacity c.node role key st w p).board.Orderly c := by
  unfold ownInsertPair
  dsimp only
  split
  · exact hw
  rename_i present
  split
  · rename_i hf
    exact hw.replace (Board.findOwn_some hf).1 rfl rfl (h.updated hw h63 hf _)
  · rename_i hf
    exact hw.takeFree present _ (fun n => h.entry h63 n _) fun _ => hw.no_own hf

theorem ownUpdatePair_orderly {role key st} (h : ownFits c.node role key st) (h63 : c.node ≤ 63) {w : BoardWork}
    (hw : w.board.Orderly c) (p : Pair) : (ownUpdatePair role key st w p).board.Orderly c := by
  unfold ownUpdatePair
  dsimp only
  split
  · rename_i hf
    exact hw.replace (Board.findOwn_some hf).1 rfl rfl (h.updated hw h63 hf _)
  · exact hw

theorem Board.orderly_of_empty {b : Board} (h : ∀ q : Res, b.lists[q] = []) : b.Orderly c :=
  ⟨fun r => by rw [h r]; exact ⟨.nil, nofun⟩, fun r _ => h r⟩

/-- Lives count down, and nothing else of an entry moves. -/
theorem Board.Orderly.tick {b : Board} (h : b.Orderly c) : b.tick.Orderly c := by
  have lists : ∀ q : Res, b.tick.lists[q] = (b.lists[q]).map fun e => { e with life := e.life.map Life.tick } :=
    fun q => mapAll_getElem _ _ q
  refine ⟨fun r => ?_, fun r hr => by rw [lists, h.absent r hr]; rfl⟩
  rw [lists]
  refine ⟨List.pairwise_map.2 ((h.ranked r).ascending.imp fun k => k), fun x hx => ?_⟩
  obtain ⟨e, he, rfl⟩ := List.mem_map.1 hx
  have k := (h.ranked r).entries e he
  refine ⟨k.cip, k.product, k.held, k.own, ?_, fun l hl => ?_⟩
  · rw [k.life]; simp
  · obtain ⟨m, hm, rfl⟩ := Option.map_eq_some_iff.1 hl
    have := k.lifeRange m hm
    unfold Life.tick
    split
    · exact this
    split <;> simp only <;> omega
end

/-! ### The node's settings, urgency and operations -/

/-- The settings that a step of a working node rests on: its number, and the base urgencies (R28, R177). -/
structure State.Based (s : State) : Prop where
  node : 1 ≤ s.settings.node ∧ s.settings.node ≤ 63
  bases : ∀ i : Fin 4, (s.store.slots[i]).baseUrgency ≤ 62

/-- Urgency, and what waits in the queue and in the admission unit (R27, R28). -/
structure State.OpsFit (s : State) : Prop where
  queued : ∀ op ∈ s.updates.ops, op.Fits s.settings.node
  waiting : ∀ op ∈ s.adm.waiting, op.Fits s.settings.node
  urgency : s.adm.urgency ≤ 62

theorem State.OpsFit.placeOp {s : State} {op : Op} (h : s.OpsFit) (k : op.Fits s.settings.node) : (s.placeOp op).OpsFit := by
  have adm := s.placeOp_adm op
  have ops := s.placeOp_ops op
  have node : (s.placeOp op).settings = s.settings := (State.fixed_eq (State.fixed_placeOp s op)).2.1
  refine ⟨?_, ?_, by rw [(s.placeOp_step op).urgency]; exact h.urgency⟩ <;> rw [node]
  · rw [ops]
    split
    · exact fun o ho => (List.mem_append.1 ho).elim (h.queued o) fun m => List.mem_singleton.1 m ▸ k
    · exact h.queued
  · rw [adm]
    split
    · exact h.waiting
    · exact fun o ho => (List.mem_append.1 ho).elim (h.waiting o) fun m => List.mem_singleton.1 m ▸ k

theorem State.OpsFit.keep {s t : State} (b : s.Based) (h : s.OpsFit) (k : QueueKept s t) : t.Based ∧ t.OpsFit := by
  refine ⟨⟨k.settings ▸ b.node, k.store ▸ b.bases⟩, ?_, ?_, k.urgency h.urgency b.bases⟩
  · rw [k.updates, k.settings]; exact h.queued
  · rw [k.waiting, k.settings]; exact h.waiting

theorem State.OpsFit.placing {s t : State} (k : Placing s t) : s.Based ∧ s.OpsFit → t.Based ∧ t.OpsFit := by
  induction k with
  | quiet k => exact fun ⟨b, h⟩ => h.keep b ⟨(State.fixed_eq k.fixed).2.1, (State.fixed_eq k.fixed).2.2.1, k.updates,
      k.outstanding, k.waiting, k.urgency, k.link ▸ .refl _⟩
  | @place s op k =>
    rintro ⟨b, h⟩
    obtain ⟨-, e, e', -⟩ := State.fixed_eq (State.fixed_placeOp s op)
    exact ⟨⟨e ▸ b.node, e' ▸ b.bases⟩, h.placeOp (k.fits h.urgency b.node.1 b.node.2)⟩
  | trans _ _ ih ik => exact fun h => ik (ih h)

theorem State.OpsFit.linking {s t : State} (k : Linking s t) : s.Based ∧ s.OpsFit → t.Based ∧ t.OpsFit := by
  induction k with
  | keep k => exact fun ⟨b, h⟩ => h.keep b k
  | placing k => exact State.OpsFit.placing k
  | trans _ _ ih ik => exact fun h => ik (ih h)

theorem State.OpsFit.step {s t : State} (k : QueueStep s t) : s.Based ∧ s.OpsFit → t.Based ∧ t.OpsFit := by
  induction k with
  | linking k => exact State.OpsFit.linking k
  | @heard s u op k _ _ _ fits =>
    intro h
    obtain ⟨b, g⟩ := State.OpsFit.linking k h
    obtain ⟨-, e, e', -⟩ := State.fixed_eq (State.fixed_enqueue u op)
    refine ⟨⟨e ▸ b.node, e' ▸ b.bases⟩, ?_, ?_, by rw [State.enqueue_adm]; exact g.urgency⟩
    · rw [State.enqueue_ops, e]
      exact fun o ho => (List.mem_append.1 ho).elim (g.queued o) fun m => List.mem_singleton.1 m ▸ fits _
    · rw [State.enqueue_adm, e]; exact g.waiting
  | @taken s =>
    rintro ⟨b, h⟩
    obtain ⟨-, e, e', -⟩ := State.fixed_eq (State.fixed_dequeue s)
    refine ⟨⟨e ▸ b.node, e' ▸ b.bases⟩, ?_, ?_, by rw [State.dequeue_adm]; exact h.urgency⟩
    · rw [State.dequeue_ops, e]; exact fun o ho => h.queued o (List.mem_of_mem_tail ho)
    · rw [State.dequeue_adm, e]; exact h.waiting
  | @ownTaken s =>
    rintro ⟨b, h⟩
    obtain ⟨-, e, e', -⟩ := State.fixed_eq ((State.fixed_opDone s.dequeue).trans (State.fixed_dequeue s))
    have adm := s.dequeue.opDone_adm
    have ops := s.dequeue.opDone_ops
    rw [State.dequeue_adm] at adm ops
    refine ⟨⟨e ▸ b.node, e' ▸ b.bases⟩, ?_, ?_, ?_⟩
    · rw [ops, e, State.dequeue_ops]
      intro o ho
      rcases List.mem_append.1 ho with m | m
      · exact h.queued o (List.mem_of_mem_tail m)
      · exact h.waiting o (List.mem_of_mem_head? (Option.mem_toList.1 m))
    · rw [adm, e]
      split
      · exact h.waiting
      · rename_i w
        exact fun o ho => h.waiting o (by rw [w]; exact List.mem_cons_of_mem _ ho)
    · rw [adm]; split <;> exact h.urgency
  | cleared => exact fun ⟨b, h⟩ => ⟨⟨b.node, b.bases⟩, nofun, nofun, h.urgency⟩
  | trans _ _ ih ik => exact fun h => ik (ih h)

/-! ### Every command -/

theorem State.Ranked.orderly {s : State} (h : s.Ranked) : s.board.Orderly s.settings :=
  ⟨fun r => ⟨h.ascending r, h.entries r⟩, h.absent⟩
theorem State.Ranked.opsFit {s : State} (h : s.Ranked) : s.OpsFit := ⟨h.queued, h.waiting, h.urgency⟩

/-- The board of a working node stays ranked. -/
theorem BoardMove.orderly {s : State} {c : Instr} {b : Board} (m : BoardMove s c b) (h : s.board.Orderly s.settings)
    (h63 : s.settings.node ≤ 63) (k : ∀ op ∈ s.updates.ops, op.Fits s.settings.node) : b.Orderly s.settings := by
  cases m with
  | same => exact h
  | announcement _ head taken => exact applyAnnouncement_orderly h (Announcement.taken_of taken) (k _ (by simp [head]))
  | release =>
    refine Board.Orderly.of_same ?_ (.holdTimers _)
    refine List.foldlRecOn (motive := fun b : Board => b.Orderly s.settings) _ _ h fun b hb r _ => ?_
    split <;> [exact hb; exact hb.unlink r _]
  | inhibit => exact h.of_same (.setInhibit _ _ _)
  | clear => exact h.of_same (.setInhibit _ _ _)
  | ownInsert head =>
    have fits := k _ (by rw [head]; exact List.mem_cons_self)
    refine Board.Orderly.of_same ?_ (.holdTimers _)
    exact List.foldlRecOn (motive := fun w : BoardWork => w.board.Orderly s.settings) _ _ h fun w hw p _ =>
      ownInsertPair_orderly fits h63 hw p
  | ownUpdate head =>
    have fits := k _ (by rw [head]; exact List.mem_cons_self)
    exact List.foldlRecOn (motive := fun w : BoardWork => w.board.Orderly s.settings) _ _ h fun w hw p _ =>
      ownUpdatePair_orderly fits h63 hw p
  | ownRemove =>
    refine Board.Orderly.of_same ?_ (.holdTimers _)
    exact List.foldlRecOn (motive := fun b : Board => b.Orderly s.settings) _ _ h fun b hb r _ => hb.unlink r _
  | expiry => exact (h.unlink _ _).of_same (.holdTimers _)
  | incomplete => exact h.of_same ⟨rfl, rfl⟩
  | cleared => exact Board.orderly_of_empty fun q => by simp [Board.clearAll, Board.start]

/-- An inert node is ranked, whatever image waits to be validated. -/
theorem State.Inert.ranked {s : State} (h : s.Inert) (hp : s.loader.phase ≠ .running)
    (image : s.loader.phase = .validating → 1 ≤ byteAt 255 s.loader.image 4 ∧ byteAt 255 s.loader.image 4 ≤ 63) : s.Ranked := by
  have empty : ∀ r : Res, s.board.lists[r] = [] := fun r => by rw [h.board]; simp [Board.start]
  refine ⟨fun r => ?_, fun r => ?_, fun r _ => empty r, ?_, ?_, fun k => absurd k hp, image, ?_, fun i => ?_⟩
  · rw [empty]; exact .nil
  · rw [empty]; nofun
  · rw [h.updates]; nofun
  · rw [h.adm]; nofun
  · rw [h.adm]; exact Nat.zero_le _
  · rw [h.store]; simp [Store.empty]

/-- The loader's image is one whose node number was judged (R177). -/
def Loader.Judged (l : Loader) : Prop := l.phase = .validating → 1 ≤ byteAt 255 l.image 4 ∧ byteAt 255 l.image 4 ≤ 63

theorem judgeImage_node {bytes : List Byte} (h : (judgeImage bytes).2 = true) :
    1 ≤ byteAt 255 bytes 4 ∧ byteAt 255 bytes 4 ≤ 63 := by
  unfold judgeImage at h
  split at h
  · cases h
  split at h
  · cases h
  · exact of_decide_eq_true h

theorem LoaderMove.judged {s : State} {c : Instr} {l : Loader} (m : LoaderMove s c l) (h : s.loader.Judged) : l.Judged := by
  cases m with
  | same => exact h
  | reading => exact nofun
  | accepted bytes _ j => exact fun _ => judgeImage_node j
  | refused => exact nofun
  | second => exact h

/-- A command that is no reset and no start-up ends in RUNNING only from RUNNING. -/
theorem LoaderMove.from_running {s : State} {c : Instr} {l : Loader} (m : LoaderMove s c l) (h : l.phase = .running) :
    s.loader.phase = .running := by
  cases m with
  | same => exact h
  | reading => cases h
  | accepted => cases h
  | refused => cases h
  | second => exact h

/-! ### Start-up -/

theorem loadImage_base (bytes : List Byte) (i : Fin 4) : ((loadImage bytes).store.slots[i]).baseUrgency ≤ 62 := by
  have base (c : Settings) (sets) (r : Recipe) : (validateRecipe c sets r).recipe.baseUrgency ≤ 62 := by
    unfold validateRecipe
    dsimp only
    split
    · exact Nat.min_le_right _ _
    split <;> exact Nat.min_le_right _ _
  simp only [loadImage, Fin.getElem_fin, Vector.getElem_ofFn]
  exact base _ _ _

/-- The blocks at start-up, the holds judged, are ranked (R23, R51, R56, R177). -/
theorem State.started_ranked {s : State} (h : s.loader.phase = .validating) (image : s.loader.Judged) :
    (s.started (loadImage s.loader.image)).judgeHolds.Ranked := by
  have node := image h
  have begun : (s.started (loadImage s.loader.image)).Based ∧ (s.started (loadImage s.loader.image)).OpsFit :=
    ⟨⟨node, loadImage_base s.loader.image⟩, nofun, nofun, Nat.zero_le _⟩
  obtain ⟨b, f⟩ := State.OpsFit.placing (Placing.refl _).judgeHolds begun
  have empty : ∀ r : Res, (s.started (loadImage s.loader.image)).judgeHolds.board.lists[r] = [] := fun r => by
    rw [(State.fixed_eq (State.fixed_judgeHolds _)).2.2.2.1]; simp [State.started, State.reset, Board.start]
  have phase := s.started_phase (loadImage s.loader.image)
  refine ⟨fun r => ?_, fun r => ?_, fun r _ => empty r, f.queued, f.waiting, fun _ => b.node, fun k => ?_, f.urgency, b.bases⟩
  · rw [empty]; exact .nil
  · rw [empty]; nofun
  · rw [phase] at k; cases k

/-! ### Every command keeps the ranking -/

theorem State.Ranked.of_parts {s : State} (o : s.board.Orderly s.settings) (f : s.OpsFit) (b : s.Based) (j : s.loader.Judged) :
    s.Ranked :=
  ⟨fun r => (o.ranked r).ascending, fun r => (o.ranked r).entries, o.absent, f.queued, f.waiting, fun _ => b.node, j,
    f.urgency, b.bases⟩

theorem State.Ranked.based {s : State} (h : s.Ranked) (hp : s.loader.phase = .running) : s.Based := ⟨h.node hp, h.bases⟩

/-- The end of a command moves nothing that the ranking rests on. -/
theorem State.Ranked.finish {s : State} (h : s.Ranked) : s.finish.Ranked := by
  obtain ⟨h1, h2, h3, h4, h5, h6, h7, h8, h9⟩ := h
  refine ⟨?_, ?_, ?_, ?_, ?_, ?_, ?_, ?_, ?_⟩ <;>
    simp only [State.finish_board, State.finish_settings, State.finish_updates, State.finish_adm, State.finish_loader,
      State.finish_store] <;> assumption

theorem State.ranked_exec {c : Instr} {s t : State} (inert : s.InertUntilRunning) (h : s.Ranked) (e : exec c s = .next t) :
    t.Ranked := by
  by_cases hc : startsAfresh c
  · have held (l : Line) : (s.held l).Ranked := (s.held_inert l).ranked nofun nofun
    have : ∃ u, exec c s = done u ∧ u.Ranked := by
      rcases hc with rfl | rfl | rfl
      · exact ⟨_, rfl, held _⟩
      · refine ⟨_, rfl, ?_⟩; split <;> [exact held _; exact h]
      · refine ⟨_, rfl, ?_⟩; split <;> [exact State.started_ranked ‹_› h.image; exact h]
    obtain ⟨u, hu, k⟩ := this
    rw [hu] at e
    rw [done_next e]
    exact k.finish
  · obtain ⟨u, hu, fixed⟩ := exec_fixed c s hc
    obtain ⟨v, hv, queue⟩ := exec_queue c s hc
    have after := State.inertUntilRunning_exec inert e
    rw [hu] at hv e
    have same : t = u.finish := done_next e
    have judged : u.loader.Judged := fixed.loader.judged h.image
    by_cases hp : s.loader.phase = .running
    · rw [same]
      have final : v.finish.OpsFit ∧ v.finish.Based := by
        obtain ⟨b, f⟩ := State.OpsFit.step queue ⟨h.based hp, h.opsFit⟩
        exact (f.keep b (.finish v)).symm
      rw [← (Host.Outcome.next.inj hv : u.finish = v.finish)] at final
      have orderly := fixed.board.orderly h.orderly (h.node hp).2 h.queued
      refine .of_parts ?_ final.1 final.2 ?_
      · rw [State.finish_board, State.finish_settings, fixed.settings]; exact orderly
      · rw [State.finish_loader]; exact judged
    · have out : t.loader.phase ≠ .running := by
        rw [same, State.finish_loader]
        exact fun k => hp (fixed.loader.from_running k)
      refine (after out).ranked out ?_
      rw [same, State.finish_loader]
      exact judged

theorem State.ranked_tick {s : State} (h : s.Ranked) : s.tick.finish.Ranked := by
  refine State.Ranked.finish ?_
  unfold State.tick
  split
  · have o := h.orderly.tick
    exact ⟨fun r => (o.ranked r).ascending, fun r => (o.ranked r).entries, o.absent, h.queued, h.waiting, h.node, h.image,
      h.urgency, h.bases⟩
  · exact ⟨h.ascending, h.entries, h.absent, h.queued, h.waiting, h.node, h.image, h.urgency, h.bases⟩

end Sys2Proof.Machine

open Sys2Proof Sys2Proof.Machine

/-- Settles O9: the operations of the board keep each list ranked, because every operation that waits carries a key that fits its owner. -/
theorem laneBoardRankedKept : Obligations.LaneBoardRankedKept := by
  intro s t inert hs h
  have k : t.InertUntilRunning ∧ t.Ranked := step_keeps (P := fun s => s.InertUntilRunning ∧ s.Ranked)
    (fun s rest ⟨i, k⟩ => ⟨fun hp => ⟨(i hp).settings, (i hp).store, (i hp).board, (i hp).updates, (i hp).adm, (i hp).seq,
        (i hp).ver, (i hp).link, (i hp).tx, (i hp).log, (i hp).uptime, (i hp).exchange, (i hp).outputs⟩,
      ⟨k.ascending, k.entries, k.absent, k.queued, k.waiting, k.node, k.image, k.urgency, k.bases⟩⟩)
    (fun _ _ _ ⟨i, k⟩ e => ⟨State.inertUntilRunning_exec i e, State.ranked_exec i k e⟩)
    (fun _ ⟨i, k⟩ => ⟨State.inertUntilRunning_tick i, State.ranked_tick k⟩) ⟨inert, hs⟩ h
  exact k.2

/-- Settles O14. -/
theorem resetMeetsTheInvariants : Obligations.ResetMeetsTheInvariants := by
  refine ⟨fun _ => State.reset_inert, Board.start_accounted, State.reset_inert.ranked nofun nofun,
    State.queueBounded_of_empty rfl rfl rfl, ⟨nofun, nofun, nofun, fun _ => rfl⟩, ?_, ⟨Nat.le_refl _, rfl, by decide⟩,
    ⟨by decide, by decide, fun _ => by decide, nofun⟩, ?_⟩
  · constructor <;> decide
  · constructor <;> decide

end

section
/-! The flags of the board's resources: which operations change them (R16, R19, R20, R25). -/

namespace Sys2Proof.Machine

/-! ### Operations that leave every flag -/

/-- The inhibit and incomplete flags and the incomplete timers are as they were. -/
structure SameFlags (a b : Board) : Prop where
  inhibit : b.inhibit = a.inhibit
  incomplete : b.incomplete = a.incomplete
  timers : b.incompleteMs = a.incompleteMs

theorem SameFlags.refl (b : Board) : SameFlags b b := ⟨rfl, rfl, rfl⟩
theorem SameFlags.trans {a b c : Board} (h : SameFlags a b) (k : SameFlags b c) : SameFlags a c :=
  ⟨k.inhibit.trans h.inhibit, k.incomplete.trans h.incomplete, k.timers.trans h.timers⟩

section
variable (b : Board)
theorem SameFlags.unlink (r p) : SameFlags b (b.unlink r p) := ⟨rfl, rfl, rfl⟩
theorem SameFlags.replace (r old new) : SameFlags b (b.replace r old new) := ⟨rfl, rfl, rfl⟩
theorem SameFlags.takeFree (r make) : SameFlags b (b.takeFree r make) := by
  unfold Board.takeFree; split <;> exact ⟨rfl, rfl, rfl⟩
theorem SameFlags.removalPass (owner listed) : SameFlags b (removalPass owner listed b).1 := by
  refine List.foldlRecOn (motive := fun x : Board × List Res => SameFlags b x.1) allRes _ (.refl b) fun x hx r _ => ?_
  split <;> [exact hx.trans (.unlink _ _ _); exact hx]
theorem SameFlags.releaseAll (capacity owner role rs) : SameFlags b (b.releaseAll capacity owner role rs) := by
  refine List.foldlRecOn (motive := fun c : Board => SameFlags b c) rs _ (.refl b) fun c hc r _ => ?_
  split <;> [exact hc; exact hc.trans (.unlink _ _ _)]
theorem SameFlags.ownRemove (role rs) : SameFlags b (b.ownRemove role rs) :=
  List.foldlRecOn (motive := fun c : Board => SameFlags b c) rs _ (.refl b) fun _ hc _ _ => hc.trans (.unlink _ _ _)
end

theorem SameFlags.applyPair (a : Announcement) (w : BoardWork) (p : Pair) : SameFlags w.board (applyPair a w p).board := by
  unfold Machine.applyPair
  dsimp only
  split
  · exact .replace _ _ _ _
  · split <;> [exact .takeFree _ _ _; exact .refl _]
theorem SameFlags.ownInsertPair (capacity node role key st) (w : BoardWork) (p : Pair) :
    SameFlags w.board (ownInsertPair capacity node role key st w p).board := by
  unfold Machine.ownInsertPair
  dsimp only
  split
  · exact .refl _
  split <;> [exact .replace _ _ _ _; exact .takeFree _ _ _]
theorem SameFlags.ownUpdatePair (role key st) (w : BoardWork) (p : Pair) :
    SameFlags w.board (ownUpdatePair role key st w p).board := by
  unfold Machine.ownUpdatePair
  split <;> [exact .replace _ _ _ _; exact .refl _]

section
variable (pairs : List Pair) (w : BoardWork)
theorem SameFlags.applyPairs (a) : SameFlags w.board (pairs.foldl (Machine.applyPair a) w).board :=
  List.foldlRecOn (motive := fun v : BoardWork => SameFlags w.board v.board) pairs _ (.refl _) fun _ hv _ _ =>
    hv.trans (.applyPair _ _ _)
theorem SameFlags.ownInserts (capacity node role key st) :
    SameFlags w.board (pairs.foldl (Machine.ownInsertPair capacity node role key st) w).board :=
  List.foldlRecOn (motive := fun v : BoardWork => SameFlags w.board v.board) pairs _ (.refl _) fun _ hv _ _ =>
    hv.trans (.ownInsertPair _ _ _ _ _ _ _)
theorem SameFlags.ownUpdates (role key st) : SameFlags w.board (pairs.foldl (Machine.ownUpdatePair role key st) w).board :=
  List.foldlRecOn (motive := fun v : BoardWork => SameFlags w.board v.board) pairs _ (.refl _) fun _ hv _ _ =>
    hv.trans (.ownUpdatePair _ _ _ _ _)
end

/-! ### Operations that change a flag -/

@[simp] theorem mem_setMembers {w : Word16} {r : Res} : r ∈ setMembers w ↔ w.getLsbD r.val = true := by
  simp [setMembers, allRes, List.mem_filter]

/-- The flags of the named resources take the value (R16). -/
theorem Board.setInhibit_get (b : Board) (v : Bool) (rs : List Res) (r : Res) :
    (b.setInhibit v rs).inhibit[r] = if r ∈ rs then v else b.inhibit[r] := by
  unfold Board.setInhibit
  induction rs generalizing b with
  | nil => simp
  | cons x xs ih =>
    rw [List.foldl_cons, ih]
    simp only [modAt_get, List.mem_cons]
    by_cases h1 : r ∈ xs <;> by_cases h2 : r = x <;> simp [h1, h2]

theorem Board.setInhibit_eq (b : Board) (v rs) : b.setInhibit v rs = { b with inhibit := (b.setInhibit v rs).inhibit } := by
  unfold Board.setInhibit
  induction rs generalizing b with
  | nil => rfl
  | cons x xs ih => rw [List.foldl_cons, ih]

/-- An insertion failure sets the flag of its resource and its timer to 0 (R13). -/
theorem Board.markIncomplete_get (b : Board) (rs : List Res) (r : Res) :
    (b.markIncomplete rs).incomplete[r] = (decide (r ∈ rs) || b.incomplete[r]) ∧
    (b.markIncomplete rs).incompleteMs[r] = if r ∈ rs then 0 else b.incompleteMs[r] := by
  unfold Board.markIncomplete
  induction rs generalizing b with
  | nil => simp
  | cons x xs ih =>
    rw [List.foldl_cons]
    obtain ⟨h1, h2⟩ := ih { b with
      incomplete := modAt b.incomplete x fun _ => true, incompleteMs := modAt b.incompleteMs x fun _ => 0 }
    rw [h1, h2]
    simp only [modAt_get, List.mem_cons]
    by_cases k1 : r ∈ xs <;> by_cases k2 : r = x <;> simp [k1, k2]
theorem Board.markIncomplete_inhibit (b : Board) (rs) : (b.markIncomplete rs).inhibit = b.inhibit :=
  List.foldlRecOn (motive := fun c : Board => c.inhibit = b.inhibit) rs _ rfl fun _ h _ _ => h

theorem applyAnnouncement_inhibit (capacity a) (b : Board) : (applyAnnouncement capacity a b).1.board.inhibit = b.inhibit := by
  unfold applyAnnouncement
  dsimp only
  rw [Board.holdTimers_inhibit, Board.markIncomplete_inhibit, (SameFlags.applyPairs _ _ _).inhibit]
  split <;> [exact (SameFlags.removalPass _ _ _).inhibit; rfl]

/-- The inhibit flags change by an INHIBIT or CLEAR operation alone. -/
theorem BoardMove.inhibit_cases {s : State} {c : Instr} {b : Board} (m : BoardMove s c b) (r : Res) :
    b.inhibit[r] = s.board.inhibit[r] ∨
    (∃ w rest, c = .inhibitOperation ∧ s.updates.ops = .inhibit w :: rest ∧ w.getLsbD r.val = true ∧ b.inhibit[r] = true) ∨
    (∃ w rest, c = .clearOperation ∧ s.updates.ops = .clear w :: rest ∧ w.getLsbD r.val = true ∧ b.inhibit[r] = false) := by
  have same {b : Board} (h : b.inhibit = s.board.inhibit) : b.inhibit[r] = s.board.inhibit[r] := by rw [h]
  cases m with
  | same => exact .inl rfl
  | announcement => exact .inl (same (applyAnnouncement_inhibit _ _ _))
  | release => exact .inl (same (by rw [Board.holdTimers_inhibit, (SameFlags.releaseAll _ _ _ _ _).inhibit]))
  | @inhibit w rest head =>
    rw [Board.setInhibit_get]
    by_cases h : w.getLsbD r.val = true
    · exact .inr (.inl ⟨w, rest, rfl, head, h, if_pos (mem_setMembers.2 h)⟩)
    · exact .inl (if_neg fun k => h (mem_setMembers.1 k))
  | @clear w rest head =>
    rw [Board.setInhibit_get]
    by_cases h : w.getLsbD r.val = true
    · exact .inr (.inr ⟨w, rest, rfl, head, h, if_pos (mem_setMembers.2 h)⟩)
    · exact .inl (if_neg fun k => h (mem_setMembers.1 k))
  | ownInsert => exact .inl (same (by rw [Board.holdTimers_inhibit, (SameFlags.ownInserts _ _ _ _ _ _ _).inhibit]))
  | ownUpdate => exact .inl (same (by rw [(SameFlags.ownUpdates _ _ _ _ _).inhibit]))
  | ownRemove => exact .inl (same (by rw [Board.holdTimers_inhibit, (SameFlags.ownRemove _ _ _).inhibit]))
  | expiry => exact .inl (same (by rw [Board.holdTimers_inhibit, (SameFlags.unlink _ _ _).inhibit]))
  | incomplete => exact .inl rfl
  | cleared => exact .inl rfl

end Sys2Proof.Machine

open Sys2Proof Sys2Proof.Machine

/-- Settles O16. -/
theorem inhibitFlagsChangeByOperationOnly : Obligations.InhibitFlagsChangeByOperationOnly := by
  intro c s t r e hc
  obtain ⟨u, hu, fixed⟩ := exec_fixed c s hc
  rw [hu] at e
  have board : t.board = u.board := by rw [done_next e, State.finish_board]
  rw [board]
  rcases fixed.board.inhibit_cases r with h | ⟨w, rest, h1, h2, h3, h4⟩ | ⟨w, rest, h1, h2, h3, h4⟩
  · exact ⟨fun k n => absurd (h.symm.trans n) (by simp [k]), fun k n => absurd (h.symm.trans n) (by simp [k])⟩
  · exact ⟨fun _ n => absurd (h4.symm.trans n) (by simp), fun _ _ => ⟨h1, w, rest, h2, h3⟩⟩
  · exact ⟨fun _ _ => ⟨h1, w, rest, h2, h3⟩, fun _ n => absurd (h4.symm.trans n) (by simp)⟩

end

section
/-! The tests on the board (R10, R18, R29, R30): which pairs are listed, the fit test, and the verdict on a run. -/

namespace Sys2Proof.Machine

/-! ### The listed pairs of an announcement (R10) -/

/-- A pair is listed as it is carried: it names a present resource, and for role CIP a demand of 1 to 250. -/
def Listable (capacity : Vector Nat 16) (role : Role) (p : Pair) : Prop :=
  capacity[p.res] ≠ 0 ∧ (role = .cip → 1 ≤ p.demand ∧ p.demand ≤ 250)

/-- A listed pair, as the announcement carried it. -/
def Pair.carried (p : Pair) : Claim := ⟨p.res.val, p.demand⟩

/-- The pair at the head is listed, or skipped. -/
theorem listedPairs_cons (capacity : Vector Nat 16) (role : Role) (seen : List Nat) (c : Claim) (rest : List Claim) :
    (∃ p : Pair, p.carried = c ∧ Listable capacity role p ∧ c.resource ∉ seen
      ∧ listedPairs capacity role seen (c :: rest) = p :: listedPairs capacity role (c.resource :: seen) rest) ∨
    ((∀ p : Pair, p.carried = c → Listable capacity role p → c.resource ∈ seen)
      ∧ listedPairs capacity role seen (c :: rest) = listedPairs capacity role (c.resource :: seen) rest) := by
  have step : listedPairs capacity role seen (c :: rest) =
      if h : c.resource < 16 then
        if capacity[c.resource] = 0 ∨ (role = .cip ∧ (c.demand = 0 ∨ 250 < c.demand)) ∨ c.resource ∈ seen then
          listedPairs capacity role (c.resource :: seen) rest
        else ⟨⟨c.resource, h⟩, c.demand⟩ :: listedPairs capacity role (c.resource :: seen) rest
      else listedPairs capacity role (c.resource :: seen) rest := rfl
  rw [step]
  by_cases h : c.resource < 16
  · rw [dif_pos h]
    by_cases k : capacity[c.resource] = 0 ∨ (role = .cip ∧ (c.demand = 0 ∨ 250 < c.demand)) ∨ c.resource ∈ seen
    · rw [if_pos k]
      refine .inr ⟨?_, rfl⟩
      rintro p rfl ⟨present, demand⟩
      rcases k with k | k | k
      · exact absurd k present
      · have := demand k.1; have := k.2; simp only [Pair.carried] at this; omega
      · exact k
    · rw [if_neg k]
      simp only [not_or, not_and] at k
      exact .inl ⟨⟨⟨c.resource, h⟩, c.demand⟩, rfl, ⟨k.1, fun e => by have := k.2.1 e; simp only; omega⟩, k.2.2, rfl⟩
  · rw [dif_neg h]
    exact .inr ⟨fun p e _ => absurd (by rw [← e]; exact p.res.isLt) h, rfl⟩

theorem listedPairs_sublist (capacity : Vector Nat 16) (role : Role) (pairs : List Claim) (seen : List Nat) :
    ((listedPairs capacity role seen pairs).map Pair.carried).Sublist pairs := by
  induction pairs generalizing seen with
  | nil => exact List.nil_sublist _
  | cons c rest ih =>
    rcases listedPairs_cons capacity role seen c rest with ⟨p, rfl, -, -, e⟩ | ⟨-, e⟩ <;> rw [e]
    · exact (ih _).cons_cons _
    · exact (ih _).cons _

/-- A pair is listed exactly where it is the first to name its resource, and can be listed. -/
theorem mem_listedPairs_iff (capacity : Vector Nat 16) (role : Role) (pairs : List Claim) (seen : List Nat) (p : Pair) :
    p ∈ listedPairs capacity role seen pairs ↔ Listable capacity role p ∧ p.res.val ∉ seen
      ∧ ∃ k : Nat, pairs[k]? = some p.carried ∧ ∀ j, j < k → ∀ c, pairs[j]? = some c → c.resource ≠ p.res.val := by
  induction pairs generalizing seen with
  | nil => simp [listedPairs]
  | cons c rest ih =>
    -- The pair that first names the resource of `p`: the head, or one of the rest, which then names another resource.
    have first : (∃ k : Nat, (c :: rest)[k]? = some p.carried
          ∧ ∀ j, j < k → ∀ d, (c :: rest)[j]? = some d → d.resource ≠ p.res.val) ↔
        c = p.carried ∨ c.resource ≠ p.res.val ∧ ∃ k : Nat, rest[k]? = some p.carried
          ∧ ∀ j, j < k → ∀ d, rest[j]? = some d → d.resource ≠ p.res.val := by
      constructor
      · rintro ⟨k, hk, hj⟩
        cases k with
        | zero => exact .inl (by simpa using hk)
        | succ k => exact .inr ⟨hj 0 (by omega) c rfl, k, by simpa using hk, fun j lt d hd => hj (j + 1) (by omega) d (by simpa using hd)⟩
      · rintro (rfl | ⟨ne, k, hk, hj⟩)
        · exact ⟨0, rfl, nofun⟩
        · refine ⟨k + 1, by simpa using hk, fun j lt d hd => ?_⟩
          cases j with
          | zero => simp only [List.getElem?_cons_zero, Option.some.injEq] at hd; exact hd ▸ ne
          | succ j => exact hj j (by omega) d (by simpa using hd)
    rw [first]
    rcases listedPairs_cons capacity role seen c rest with ⟨q, rfl, ok, unseen, e⟩ | ⟨skipped, e⟩ <;> rw [e]
    · rw [List.mem_cons, ih]
      simp only [List.mem_cons, not_or]
      constructor
      · rintro (rfl | ⟨h1, ⟨h2, h3⟩, h4⟩)
        · exact ⟨ok, unseen, .inl rfl⟩
        · exact ⟨h1, h3, .inr ⟨fun k => h2 k.symm, h4⟩⟩
      · rintro ⟨h1, h2, h3 | ⟨h3, h4⟩⟩
        · obtain ⟨⟨r, hr⟩, d⟩ := p
          obtain ⟨⟨r', hr'⟩, d'⟩ := q
          simp only [Pair.carried, Claim.mk.injEq] at h3
          obtain ⟨rfl, rfl⟩ := h3
          exact .inl rfl
        · exact .inr ⟨h1, ⟨fun k => h3 k.symm, h2⟩, h4⟩
    · rw [ih]
      simp only [List.mem_cons, not_or]
      constructor
      · rintro ⟨h1, ⟨h2, h3⟩, h4⟩
        exact ⟨h1, h3, .inr ⟨fun k => h2 k.symm, h4⟩⟩
      · rintro ⟨h1, h2, h3 | ⟨h3, h4⟩⟩
        · exact absurd (skipped p h3.symm h1) (by rw [h3]; exact h2)
        · exact ⟨h1, ⟨fun k => h3 k.symm, h2⟩, h4⟩

/-- No resource is listed twice. -/
theorem listedPairs_nodup (capacity : Vector Nat 16) (role : Role) (pairs : List Claim) (seen : List Nat) :
    ((listedPairs capacity role seen pairs).map (·.res)).Nodup := by
  induction pairs generalizing seen with
  | nil => exact List.nodup_nil
  | cons c rest ih =>
    rcases listedPairs_cons capacity role seen c rest with ⟨q, rfl, -, -, e⟩ | ⟨-, e⟩ <;> rw [e]
    · refine List.nodup_cons.2 ⟨fun h => ?_, ih _⟩
      obtain ⟨p, hp, k⟩ := List.mem_map.1 h
      have := ((mem_listedPairs_iff capacity role rest _ p).1 hp).2.1
      exact this (by rw [show p.res = q.res from k]; exact List.mem_cons_self)
    · exact ih _

/-! ### The fit test (R18, R29) -/

/-- The own claims on the board, by ascending resource. -/
theorem mem_ownClaims {b : Board} {r : Res} {e : Entry} : (r, e) ∈ b.ownClaims ↔ b.findOwn r .cip = some e := by
  simp only [Board.ownClaims, allRes, List.mem_filterMap, List.mem_finRange, true_and, Option.map_eq_some_iff, Prod.mk.injEq]
  constructor
  · rintro ⟨q, x, h, rfl, rfl⟩; exact h
  · exact fun h => ⟨r, e, h, rfl, rfl⟩

theorem ownClaims_ascending (b : Board) : b.ownClaims.Pairwise fun x y => x.1 < y.1 := by
  unfold Board.ownClaims
  refine List.Pairwise.filterMap _ (R := (· < ·)) ?_ (List.pairwise_lt_finRange 16)
  intro r q lt x hx y hy
  obtain ⟨e, -, rfl⟩ := Option.map_eq_some_iff.1 hx
  obtain ⟨e', -, rfl⟩ := Option.map_eq_some_iff.1 hy
  exact lt

/-- The first result along a list. -/
theorem findSome?_eq_some_iff_first {α β : Type} {f : α → Option β} {l : List α} {y : β} {R : α → α → Prop}
    (h : l.Pairwise R) (irrefl : ∀ a, ¬ R a a) (asymm : ∀ a b, R a b → ¬ R b a) :
    l.findSome? f = some y ↔ ∃ x ∈ l, f x = some y ∧ ∀ z ∈ l, R z x → f z = none := by
  induction l with
  | nil => simp
  | cons a l ih =>
    obtain ⟨ha, hl⟩ := List.pairwise_cons.1 h
    rw [List.findSome?_cons]
    cases fa : f a with
    | some b =>
      simp only [Option.some.injEq]
      constructor
      · rintro rfl
        refine ⟨a, by simp, fa, fun z hz k => ?_⟩
        rcases List.mem_cons.1 hz with rfl | hz
        · exact absurd k (irrefl _)
        · exact absurd k (asymm _ _ (ha z hz))
      · rintro ⟨x, hx, hf, first⟩
        rcases List.mem_cons.1 hx with rfl | hx
        · rw [fa] at hf; exact Option.some.inj hf
        · have := first a (by simp) (ha x hx); rw [fa] at this; cases this
    | none =>
      simp only [ih hl]
      constructor
      · rintro ⟨x, hx, hf, first⟩
        refine ⟨x, List.mem_cons_of_mem _ hx, hf, fun z hz k => ?_⟩
        rcases List.mem_cons.1 hz with rfl | hz
        · exact fa
        · exact first z hz k
      · rintro ⟨x, hx, hf, first⟩
        rcases List.mem_cons.1 hx with rfl | hx
        · rw [fa] at hf; cases hf
        · exact ⟨x, hx, hf, fun z hz k => first z (List.mem_cons_of_mem _ hz) k⟩

/-- A resource fails for one of the four reasons, in their order (R29). -/
theorem failsOn_iff (capacity : Vector Nat 16) (b : Board) (r : Res) (own : Entry) :
    (failsOn capacity b r own = some .inhibited ↔ b.inhibit[r] = true) ∧
    (failsOn capacity b r own = some .incomplete ↔ b.inhibit[r] = false ∧ b.incomplete[r] = true) ∧
    (failsOn capacity b r own = some .product ↔
      b.inhibit[r] = false ∧ b.incomplete[r] = false ∧ ∃ e ∈ b.lists[r], e.state = .held) ∧
    (failsOn capacity b r own = some .full ↔ b.inhibit[r] = false ∧ b.incomplete[r] = false
      ∧ (∀ e ∈ b.lists[r], e.state ≠ .held) ∧ capacity[r] < loadAgainst own.key b.lists[r] + own.demand.getD 0) ∧
    failsOn capacity b r own ≠ some .pass ∧ failsOn capacity b r own ≠ some .empty := by
  unfold failsOn
  by_cases h1 : b.inhibit[r] = true
  · rw [if_pos h1]; simp_all
  rw [if_neg h1]
  by_cases h2 : b.incomplete[r] = true
  · rw [if_pos h2]; simp_all
  rw [if_neg h2]
  by_cases h3 : (b.lists[r].any fun e => decide (e.state = .held)) = true
  · rw [if_pos h3]
    have held : ∃ e ∈ b.lists[r], e.state = .held := by simpa using h3
    have none : ¬ ∀ e ∈ b.lists[r], e.state ≠ .held := fun k => by obtain ⟨e, m, n⟩ := held; exact k e m n
    simp_all
  rw [if_neg h3]
  have none : ∀ e ∈ b.lists[r], e.state ≠ .held := by simpa using h3
  have held : ¬ ∃ e ∈ b.lists[r], e.state = .held := fun ⟨e, m, n⟩ => none e m n
  by_cases h4 : capacity[r] < loadAgainst own.key b.lists[r] + own.demand.getD 0
  · rw [if_pos h4]; simp_all
  · rw [if_neg h4]; simp_all

/-- The fit test in terms of the own claims that fail. -/
theorem fitTest_eq (capacity : Vector Nat 16) (b : Board) :
    fitTest capacity b =
      if b.ownClaims = [] then .empty
      else (b.ownClaims.findSome? fun x => failsOn capacity b x.1 x.2).getD .pass := by
  unfold fitTest
  split
  · rename_i h; rw [if_pos h]
  · rename_i h; rw [if_neg h]

theorem ownClaims_eq_nil (b : Board) : b.ownClaims = [] ↔ ∀ r : Res, b.findOwn r .cip = none := by
  rw [List.eq_nil_iff_forall_not_mem]
  constructor
  · intro h r
    cases e : b.findOwn r .cip with
    | none => rfl
    | some own => exact absurd (mem_ownClaims.2 e) (h (r, own))
  · rintro h ⟨r, own⟩ k
    rw [mem_ownClaims, h r] at k
    cases k

/-- An own claim fails first along the ascending resources. -/
theorem firstFailure_iff (capacity : Vector Nat 16) (b : Board) (reason : Fit) :
    (b.ownClaims.findSome? fun x => failsOn capacity b x.1 x.2) = some reason ↔
      ∃ (r : Res) (own : Entry), b.findOwn r .cip = some own ∧ failsOn capacity b r own = some reason
        ∧ ∀ (q : Res) (other : Entry), q < r → b.findOwn q .cip = some other → failsOn capacity b q other = none := by
  rw [findSome?_eq_some_iff_first (ownClaims_ascending b) (fun x => lt_irrefl x.1) fun x y => lt_asymm]
  constructor
  · rintro ⟨⟨r, own⟩, hm, hf, first⟩
    exact ⟨r, own, mem_ownClaims.1 hm, hf, fun q other lt ho => first (q, other) (mem_ownClaims.2 ho) lt⟩
  · rintro ⟨r, own, ho, hf, first⟩
    exact ⟨(r, own), mem_ownClaims.2 ho, hf, fun ⟨q, other⟩ hm lt => first q other lt (mem_ownClaims.1 hm)⟩

theorem noFailure_iff (capacity : Vector Nat 16) (b : Board) :
    (b.ownClaims.findSome? fun x => failsOn capacity b x.1 x.2) = none ↔
      ∀ (r : Res) (own : Entry), b.findOwn r .cip = some own → failsOn capacity b r own = none := by
  rw [List.findSome?_eq_none_iff]
  exact ⟨fun h r own ho => h (r, own) (mem_ownClaims.2 ho), fun h ⟨r, own⟩ hm => h r own (mem_ownClaims.1 hm)⟩

/-! ### The verdict on a run (R22, R30) -/

/-- The verdict on a resource: on an own running entry, by a held entry there, or by the running demands up to its key. -/
theorem verdictOn_iff (capacity : Vector Nat 16) (b : Board) (r : Res) :
    (verdictOn capacity b r = some .routeTaken ↔
      ∃ own, b.findOwn r .cip = some own ∧ own.state = .running ∧ ∃ e ∈ b.lists[r], e.state = .held) ∧
    (verdictOn capacity b r = some .shed ↔
      ∃ own, b.findOwn r .cip = some own ∧ own.state = .running ∧ (∀ e ∈ b.lists[r], e.state ≠ .held)
        ∧ capacity[r] < demandSum (fun e => decide (e.state = .running ∧ e.key ≤ own.key)) b.lists[r]) := by
  unfold verdictOn
  cases h : b.findOwn r .cip with
  | none => simp
  | some own =>
    dsimp only
    by_cases run : own.state = .running
    · rw [if_pos run]
      by_cases held : (b.lists[r].any fun x => decide (x.state = .held)) = true
      · rw [if_pos held]
        have some : ∃ e ∈ b.lists[r], e.state = .held := by simpa using held
        have none : ¬ ∀ e ∈ b.lists[r], e.state ≠ .held := fun k => by obtain ⟨e, m, n⟩ := some; exact k e m n
        simp_all
      · rw [if_neg held]
        have none : ∀ e ∈ b.lists[r], e.state ≠ .held := by simpa using held
        have some : ¬ ∃ e ∈ b.lists[r], e.state = .held := fun ⟨e, m, n⟩ => none e m n
        split <;> simp_all
    · rw [if_neg run]
      simp [run]

theorem verdictFor_iff (capacity : Vector Nat 16) (b : Board) (touched : List Res) :
    (verdictFor capacity b touched = some .routeTaken ↔ ∃ r ∈ touched, verdictOn capacity b r = some .routeTaken) ∧
    (verdictFor capacity b touched = some .shed ↔
      (∀ r ∈ touched, verdictOn capacity b r ≠ some .routeTaken) ∧ ∃ r ∈ touched, verdictOn capacity b r = some .shed) := by
  unfold verdictFor
  by_cases h1 : (touched.any fun r => verdictOn capacity b r == some .routeTaken) = true
  · rw [if_pos h1]
    have route : ∃ r ∈ touched, verdictOn capacity b r = some .routeTaken := by simpa using h1
    refine ⟨⟨fun _ => route, fun _ => rfl⟩, nofun, fun ⟨k, _⟩ => ?_⟩
    obtain ⟨r, m, e⟩ := route
    exact absurd e (k r m)
  · rw [if_neg h1]
    have none : ∀ r ∈ touched, verdictOn capacity b r ≠ some .routeTaken := by simpa using h1
    split
    · rename_i h2
      have shed : ∃ r ∈ touched, verdictOn capacity b r = some .shed := by simpa using h2
      exact ⟨⟨nofun, fun ⟨r, m, e⟩ => absurd e (none r m)⟩, fun _ => ⟨none, shed⟩, fun _ => rfl⟩
    · rename_i h2
      have noShed : ¬ ∃ r ∈ touched, verdictOn capacity b r = some .shed := by simpa using h2
      exact ⟨⟨nofun, fun ⟨r, m, e⟩ => absurd e (none r m)⟩, nofun, fun k => absurd k.2 noShed⟩

/-- The verdict depends on the resources touched, not on their order. -/
theorem verdictFor_congr (capacity : Vector Nat 16) (b : Board) {xs ys : List Res} (h : ∀ r, r ∈ xs ↔ r ∈ ys) :
    verdictFor capacity b xs = verdictFor capacity b ys := by
  have any (f : Res → Bool) : xs.any f = ys.any f := by
    rw [Bool.eq_iff_iff, List.any_eq_true, List.any_eq_true]
    simp only [h]
  unfold verdictFor
  rw [any, any]

end Sys2Proof.Machine

open Sys2Proof Sys2Proof.Machine

/-- Settles O54, by induction on the pairs carried. -/
theorem listedPairsAreTheUnskipped : Obligations.ListedPairsAreTheUnskipped := by
  refine fun capacity role pairs => ⟨listedPairs_sublist capacity role pairs [], fun p => ?_⟩
  rw [mem_listedPairs_iff]
  constructor
  · rintro ⟨⟨h1, h2⟩, -, k, hk, first⟩
    exact ⟨k, hk, h1, h2, first⟩
  · rintro ⟨k, hk, h1, h2, first⟩
    exact ⟨⟨h1, h2⟩, List.not_mem_nil, k, hk, first⟩

/-- Settles O55: a resource fails in at most one way, and the first failure along the ascending resources is the outcome. -/
theorem fitTestOutcome : Obligations.FitTestOutcome := by
  intro capacity b load fails hload hfails
  have reason : ∀ r own why, fails r own why ↔ failsOn capacity b r own = some why := by
    intro r own why
    obtain ⟨f1, f2, f3, f4, f5, f6⟩ := hfails r own
    obtain ⟨g1, g2, g3, g4, g5, g6⟩ := failsOn_iff capacity b r own
    cases why with
    | pass => exact ⟨fun k => absurd k f5, fun k => absurd k g5⟩
    | empty => exact ⟨fun k => absurd k f6, fun k => absurd k g6⟩
    | inhibited => exact f1.trans g1.symm
    | incomplete => exact f2.trans g2.symm
    | product => exact f3.trans g3.symm
    | full => rw [f4, g4, hload]; rfl
  have fits : ∀ r own, (∀ why, ¬ failsOn capacity b r own = some why) ↔ failsOn capacity b r own = none := by
    intro r own
    cases failsOn capacity b r own <;> simp
  have noPass : (b.ownClaims.findSome? fun x => failsOn capacity b x.1 x.2) ≠ some .pass := fun k => by
    obtain ⟨r, own, -, hf, -⟩ := (firstFailure_iff capacity b .pass).1 k
    exact (failsOn_iff capacity b r own).2.2.2.2.1 hf
  have noEmpty : (b.ownClaims.findSome? fun x => failsOn capacity b x.1 x.2) ≠ some .empty := fun k => by
    obtain ⟨r, own, -, hf, -⟩ := (firstFailure_iff capacity b .empty).1 k
    exact (failsOn_iff capacity b r own).2.2.2.2.2 hf
  simp only [reason, fits, fitTest_eq]
  rw [← ownClaims_eq_nil, ← noFailure_iff]
  simp only [← firstFailure_iff]
  have some_iff : (∃ r : Res, (b.findOwn r .cip).isSome = true) ↔ b.ownClaims ≠ [] := by
    rw [ne_eq, ownClaims_eq_nil]
    simp [Option.isSome_iff_ne_none]
  rw [some_iff]
  by_cases h : b.ownClaims = []
  · rw [if_pos h, h]
    exact ⟨by simp, by simp, fun why h1 h2 => by simpa using h2.symm⟩
  · rw [if_neg h]
    cases f : b.ownClaims.findSome? fun x => failsOn capacity b x.1 x.2 with
    | none => exact ⟨by simp [h], by simp [h], fun why h1 h2 => by simpa using h1.symm⟩
    | some why =>
      rw [f] at noPass noEmpty
      exact ⟨by simpa [h] using noEmpty, by simpa [h] using noPass, fun why' _ _ => by simp⟩

/-- Settles O56. -/
theorem verdictOnRunningResources : Obligations.VerdictOnRunningResources := by
  intro capacity b touched runs hruns
  obtain ⟨v1, v2⟩ := verdictFor_iff capacity b touched
  rw [v1, v2]
  simp only [hruns, (verdictOn_iff capacity b _).1, (verdictOn_iff capacity b _).2, ne_eq]
  constructor
  · exact ⟨fun ⟨r, m, own, f, s, k⟩ => ⟨r, own, ⟨m, f, s⟩, k⟩, fun ⟨r, own, ⟨m, f, s⟩, k⟩ => ⟨r, m, own, f, s, k⟩⟩
  · constructor
    · rintro ⟨none, r, m, own, f, s, -, k⟩
      exact ⟨fun r own ⟨m, f, s⟩ e he held => none r m ⟨own, f, s, e, he, held⟩, r, own, ⟨m, f, s⟩, k⟩
    · rintro ⟨none, r, own, ⟨m, f, s⟩, k⟩
      exact ⟨fun r m ⟨own, f, s, e, he, held⟩ => none r own ⟨m, f, s⟩ e he held, r, m, own, f, s,
        none r own ⟨m, f, s⟩, k⟩

end

section
/-! The step with no command waiting: what falls due of itself, and what a millisecond that passes moves (R6, R8, R15, R20, R125). -/

namespace Sys2Proof.Machine

/-! ### Conditions of what falls due -/

theorem dueIf_eq_some {k : Bool} {i c : Instr} : dueIf k i = some c ↔ k = true ∧ i = c := by
  unfold dueIf; split <;> simp [*]
theorem dueIf_eq_none {k : Bool} {i : Instr} : dueIf k i = none ↔ k = false := by
  unfold dueIf; split <;> simp [*]
theorem Timer.due_iff {limit : Nat} {t : Timer} : t.due limit = true ↔ Reached limit t := by
  simp [Timer.due, Reached]
theorem Timer.out_iff {t : Timer} : t.out = true ↔ RanOut t := by
  simp [Timer.out, RanOut]
theorem Line.due_iff {l : Line} : l.due = true ↔ Reached 50 l.timer := Timer.due_iff
theorem State.isRunning_iff {s : State} : s.isRunning = true ↔ s.loader.phase = .running := by simp [State.isRunning]
theorem Entry.due_iff {e : Entry} : e.due = true ↔ e.life.map (·.units) = some 0 := by simp [Entry.due]

/-- Every command that an option offers has the property. -/
def Offers (R : Instr → Prop) (o : Option Instr) : Prop := ∀ c, o = some c → R c

section
variable {R : Instr → Prop}
theorem Offers.or {a b : Option Instr} (ha : Offers R a) (hb : Offers R b) : Offers R (a.or b) := by
  intro c h
  rcases Option.or_eq_some_iff.1 h with h | ⟨-, h⟩
  · exact ha c h
  · exact hb c h
theorem Offers.dueIf {k : Bool} {i : Instr} (h : k = true → R i) : Offers R (dueIf k i) := by
  intro c e
  obtain ⟨hk, rfl⟩ := dueIf_eq_some.1 e
  exact h hk
theorem Offers.findSome {α : Type} {l : List α} {f : α → Option Instr} (h : ∀ a, Offers R (f a)) : Offers R (l.findSome? f) := by
  intro c e
  obtain ⟨a, -, k⟩ := List.exists_of_findSome?_eq_some e
  exact h a c k
end

/-! ### Each group of what falls due -/

section
variable (s : State)

theorem State.dueReset_ripe : Offers s.Ripe s.dueReset := by
  refine .or (.dueIf fun h => ?_) (.dueIf fun h => ?_)
  · rw [Bool.and_eq_true, Line.due_iff] at h
    exact h
  · simp only [Bool.and_eq_true, Line.due_iff, Bool.not_eq_true', decide_eq_true_eq] at h
    exact ⟨h.1.1, h.1.2, h.2⟩

theorem Board.dueEntry_some {b : Board} {n : Fin 64} (h : b.dueEntry = some n) :
    ∃ r : Res, ∃ e ∈ b.lists[r], e.num = n ∧ e.life.map (·.units) = some 0 := by
  obtain ⟨r, -, k⟩ := List.exists_of_findSome?_eq_some h
  obtain ⟨e, he, rfl⟩ := Option.map_eq_some_iff.1 k
  exact ⟨r, e, List.mem_of_find?_eq_some he, rfl, Entry.due_iff.1 (List.find?_some he)⟩

theorem Board.dueEntry_eq_none {b : Board} : b.dueEntry = none ↔ ∀ r : Res, ∀ e ∈ b.lists[r], e.life.map (·.units) ≠ some 0 := by
  simp only [Board.dueEntry, allRes, List.findSome?_eq_none_iff, List.mem_finRange, true_imp_iff, Option.map_eq_none_iff,
    List.find?_eq_none, Entry.due_iff, ne_eq]

theorem State.agingDue_iff (s : State) : s.agingDue = true ↔ s.adm.own = .waiting ∧ s.adm.state = .active
    ∧ (s.link.state = .engaged ∨ s.link.state = .reticent) ∧ s.settings.agingMs ≤ s.adm.aging := by
  simp only [State.agingDue, State.agingRuns, State.onLine, Bool.and_eq_true, decide_eq_true_eq, and_assoc]

variable (hp : s.loader.phase = .running)
include hp

theorem State.dueOp_ripe : Offers s.Ripe (s.updates.ops.head?.map Op.instr) := by
  intro c h
  obtain ⟨op, ho, rfl⟩ := Option.map_eq_some_iff.1 h
  obtain ⟨rest, head⟩ := List.head?_eq_some_iff.1 ho
  cases op with
  | announce a =>
    cases k : a.role with
    | cip =>
      have e : (Op.announce a).instr = .applyAnnouncementCip := if_pos k
      rw [e]
      exact ⟨hp, a, rest, head, k⟩
    | product =>
      have e : (Op.announce a).instr = .applyAnnouncementProduct := if_neg (k ▸ nofun)
      rw [e]
      exact ⟨hp, a, rest, head, k⟩
  | release => exact ⟨hp, _, _, _, _, head⟩
  | inhibit => exact ⟨hp, _, _, head⟩
  | clear => exact ⟨hp, _, _, head⟩
  | ownInsert => exact ⟨hp, _, _, _, _, _, head⟩
  | ownUpdate => exact ⟨hp, _, _, _, _, _, head⟩
  | ownRemove => exact ⟨hp, _, _, _, head⟩
  | evaluate => exact ⟨hp, _, head⟩

theorem State.dueInput_ripe : Offers s.Ripe s.dueInput := by
  refine .or (.or (.dueIf fun h => ?_) (.findSome fun i => .dueIf fun h => ?_))
    (.or (.dueIf fun h => ?_) (.findSome fun i => .dueIf fun h => ?_))
  · exact ⟨hp, Line.due_iff.1 h⟩
  · rw [Bool.and_eq_true, Line.due_iff] at h
    exact ⟨hp, h⟩
  · rw [Bool.and_eq_true, Line.due_iff] at h
    exact ⟨hp, h⟩
  · exact ⟨hp, Line.due_iff.1 h⟩

theorem State.dueSample_ripe : Offers s.Ripe s.dueSample := by
  refine .or (.dueIf fun h => ?_) (.dueIf fun h => ?_)
  · rw [Bool.and_eq_true, decide_eq_true_eq, Timer.due_iff] at h
    exact ⟨hp, h⟩
  · rw [Bool.and_eq_true, decide_eq_true_eq, Timer.out_iff] at h
    exact ⟨hp, h⟩

theorem State.dueIncomplete_ripe : Offers s.Ripe s.dueIncomplete := by
  refine .findSome fun r => .dueIf fun h => ?_
  simp only [Board.incompleteDue, Bool.and_eq_true, Board.peerRoom, decide_eq_true_eq] at h
  exact ⟨hp, h.1.1, h.1.2, h.2⟩

theorem State.dueAdmission_ripe : Offers s.Ripe s.dueAdmission := by
  refine .or (.or (.dueIf fun h => ?_) (.dueIf fun h => ?_)) (.or (.or (.dueIf fun h => ?_) (.dueIf fun h => ?_))
    (.or (.or (.dueIf fun h => ?_) (.dueIf fun h => ?_)) (.findSome fun i => .dueIf fun h => ?_)))
  · exact ⟨hp, Timer.due_iff.1 h⟩
  · rw [Bool.and_eq_true, decide_eq_true_eq, Timer.due_iff] at h
    exact ⟨hp, h.2, h.1⟩
  · rw [Bool.and_eq_true, decide_eq_true_eq, Timer.due_iff] at h
    exact ⟨hp, h.2, h.1⟩
  · rw [Bool.and_eq_true, decide_eq_true_eq, Timer.due_iff] at h
    exact ⟨hp, h.2, h.1⟩
  · rw [Bool.and_eq_true, decide_eq_true_eq, Timer.due_iff] at h
    exact ⟨hp, h.2, h.1⟩
  · exact ⟨hp, (State.agingDue_iff s).1 h⟩
  · simp only [Bool.and_eq_true, Timer.due_iff, Option.isSome_iff_ne_none] at h
    exact ⟨hp, h.1.1, h.1.2, h.2⟩

theorem State.dueRound_ripe : Offers s.Ripe s.dueRound := by
  refine .or (.dueIf fun h => ?_) (.or (.dueIf fun h => ?_) (.dueIf fun h => ?_))
  · rw [Bool.and_eq_true, decide_eq_true_eq, Timer.due_iff] at h
    exact ⟨hp, h.2, h.1⟩
  · rw [Bool.and_eq_true, decide_eq_true_eq, Timer.out_iff] at h
    exact ⟨hp, h.2.1, h.2.2, h.1⟩
  · rw [Bool.and_eq_true, decide_eq_true_eq, Timer.due_iff] at h
    exact ⟨hp, h.2, h.1⟩

theorem State.dueLink_ripe : Offers s.Ripe s.dueLink := by
  refine .or (.or (.dueIf fun h => ?_) (.dueIf fun h => ?_)) (.or (.dueIf fun h => ?_) (.dueIf fun h => ?_))
  · exact ⟨hp, Timer.due_iff.1 h⟩
  · rw [Bool.and_eq_true, decide_eq_true_eq, Timer.due_iff] at h
    exact ⟨hp, h.2, h.1⟩
  · exact ⟨hp, Timer.out_iff.1 h⟩
  · exact ⟨hp, of_decide_eq_true h⟩
end

/-- What the step takes is due. -/
theorem State.dueCommand_ripe (s : State) : Offers s.Ripe s.dueCommand := by
  refine .or s.dueReset_ripe ?_
  split
  · rename_i h
    have hp := State.isRunning_iff.1 h
    refine .or (.or (fun c hc => ?_) (s.dueOp_ripe hp)) (.or (.or (s.dueInput_ripe hp) (s.dueSample_ripe hp))
      (.or (.or (s.dueIncomplete_ripe hp) (s.dueAdmission_ripe hp)) (.or (s.dueRound_ripe hp) (s.dueLink_ripe hp))))
    obtain ⟨n, hn, rfl⟩ := Option.map_eq_some_iff.1 hc
    obtain ⟨r, e, m, k⟩ := Board.dueEntry_some hn
    exact ⟨hp, r, e, m, k⟩
  · exact nofun

/-- Where nothing is due, each condition fails: those of RESET, and in RUNNING those of every group. -/
theorem State.nothing_due {s : State} (h : s.dueCommand = none) :
    s.dueReset = none ∧ (s.loader.phase = .running → s.board.dueEntry = none ∧ s.updates.ops = [] ∧ s.dueInput = none
      ∧ s.dueSample = none ∧ s.dueIncomplete = none ∧ s.dueAdmission = none ∧ s.dueRound = none ∧ s.dueLink = none) := by
  obtain ⟨h1, h2⟩ := Option.or_eq_none_iff.1 h
  refine ⟨h1, fun hp => ?_⟩
  rw [if_pos (State.isRunning_iff.2 hp)] at h2
  simp only [Option.or_eq_none_iff, Option.map_eq_none_iff, List.head?_eq_none_iff] at h2
  obtain ⟨⟨k1, k2⟩, ⟨k3, k4⟩, ⟨k5, k6⟩, k7, k8⟩ := h2
  exact ⟨k1, k2, k3, k4, k5, k6, k7, k8⟩

/-- Where nothing is due, no command is ripe. -/
theorem State.nothing_ripe {s : State} (h : s.dueCommand = none) (c : Instr) : ¬ s.Ripe c := by
  obtain ⟨reset, groups⟩ := State.nothing_due h
  simp only [State.dueReset, Option.or_eq_none_iff, dueIf_eq_none] at reset
  have ops (hp : s.loader.phase = .running) {op rest} (k : s.updates.ops = op :: rest) : False := by
    have := (groups hp).2.1; rw [k] at this; cases this
  have input (hp : s.loader.phase = .running) := (groups hp).2.2.1
  have sample (hp : s.loader.phase = .running) := (groups hp).2.2.2.1
  have incomplete (hp : s.loader.phase = .running) := (groups hp).2.2.2.2.1
  have adm (hp : s.loader.phase = .running) := (groups hp).2.2.2.2.2.1
  have round (hp : s.loader.phase = .running) := (groups hp).2.2.2.2.2.2.1
  have link (hp : s.loader.phase = .running) := (groups hp).2.2.2.2.2.2.2
  simp only [State.dueInput, allFour, Option.or_eq_none_iff, dueIf_eq_none, List.findSome?_eq_none_iff, List.mem_finRange,
    true_imp_iff] at input
  simp only [State.dueSample, Option.or_eq_none_iff, dueIf_eq_none] at sample
  simp only [State.dueIncomplete, allRes, dueIf_eq_none, List.findSome?_eq_none_iff, List.mem_finRange, true_imp_iff] at incomplete
  simp only [State.dueAdmission, allFour, Option.or_eq_none_iff, dueIf_eq_none, List.findSome?_eq_none_iff, List.mem_finRange,
    true_imp_iff] at adm
  simp only [State.dueRound, Option.or_eq_none_iff, dueIf_eq_none] at round
  simp only [State.dueLink, Option.or_eq_none_iff, dueIf_eq_none] at link
  cases c with
  | resetRisingEdge => rintro ⟨h1, h2⟩; exact Bool.eq_false_iff.1 reset.1 (by simp [Line.due_iff, h1, h2])
  | resetFallingEdge => rintro ⟨h1, h2, h3⟩; exact Bool.eq_false_iff.1 reset.2 (by simp [Line.due_iff, h1, h2, h3])
  | entryExpiry n => rintro ⟨hp, r, e, m, -, k⟩; exact Board.dueEntry_eq_none.1 (groups hp).1 r e m k
  | applyAnnouncementCip => rintro ⟨hp, a, rest, k, -⟩; exact ops hp k
  | applyAnnouncementProduct => rintro ⟨hp, a, rest, k, -⟩; exact ops hp k
  | applyRelease => rintro ⟨hp, _, _, _, _, k⟩; exact ops hp k
  | inhibitOperation => rintro ⟨hp, _, _, k⟩; exact ops hp k
  | clearOperation => rintro ⟨hp, _, _, k⟩; exact ops hp k
  | ownInsert => rintro ⟨hp, _, _, _, _, _, k⟩; exact ops hp k
  | ownUpdate => rintro ⟨hp, _, _, _, _, _, k⟩; exact ops hp k
  | ownRemove => rintro ⟨hp, _, _, _, k⟩; exact ops hp k
  | evaluate => rintro ⟨hp, _, k⟩; exact ops hp k
  | stopChange => rintro ⟨hp, k⟩; exact Bool.eq_false_iff.1 (input hp).1.1 (Line.due_iff.2 k)
  | reqRisingEdge i =>
    rintro ⟨hp, k, l⟩
    exact Bool.eq_false_iff.1 ((input hp).1.2 i) (by rw [Bool.and_eq_true, Line.due_iff]; exact ⟨k, l⟩)
  | confirmRisingEdge =>
    rintro ⟨hp, k, l⟩
    exact Bool.eq_false_iff.1 (input hp).2.1 (by rw [Bool.and_eq_true, Line.due_iff]; exact ⟨k, l⟩)
  | prodLineChange i => rintro ⟨hp, k⟩; exact Bool.eq_false_iff.1 ((input hp).2.2 i) (Line.due_iff.2 k)
  | replyTimeout =>
    rintro ⟨hp, k, l⟩
    exact Bool.eq_false_iff.1 (sample hp).1 (by rw [Bool.and_eq_true, decide_eq_true_eq, Timer.due_iff]; exact ⟨k, l⟩)
  | samplePeriodExpiry =>
    rintro ⟨hp, k, l⟩
    exact Bool.eq_false_iff.1 (sample hp).2 (by rw [Bool.and_eq_true, decide_eq_true_eq, Timer.out_iff]; exact ⟨k, l⟩)
  | incompleteTimerExpiry r =>
    rintro ⟨hp, k, l, m⟩
    refine Bool.eq_false_iff.1 (incomplete hp r) ?_
    simp only [Board.incompleteDue, Bool.and_eq_true, Board.peerRoom, decide_eq_true_eq]
    exact ⟨⟨k, l⟩, m⟩
  | learningExpiry => rintro ⟨hp, k⟩; exact Bool.eq_false_iff.1 (adm hp).1.1 (Timer.due_iff.2 k)
  | settleExpiry =>
    rintro ⟨hp, k, l⟩
    exact Bool.eq_false_iff.1 (adm hp).1.2 (by rw [Bool.and_eq_true, decide_eq_true_eq, Timer.due_iff]; exact ⟨l, k⟩)
  | lapseExpiry =>
    rintro ⟨hp, k, l⟩
    exact Bool.eq_false_iff.1 (adm hp).2.1.1 (by rw [Bool.and_eq_true, decide_eq_true_eq, Timer.due_iff]; exact ⟨l, k⟩)
  | guardExpiry =>
    rintro ⟨hp, k, l⟩
    exact Bool.eq_false_iff.1 (adm hp).2.1.2 (by rw [Bool.and_eq_true, decide_eq_true_eq, Timer.due_iff]; exact ⟨l, k⟩)
  | refreshExpiry =>
    rintro ⟨hp, k, l⟩
    exact Bool.eq_false_iff.1 (adm hp).2.2.1.1 (by rw [Bool.and_eq_true, decide_eq_true_eq, Timer.due_iff]; exact ⟨l, k⟩)
  | agingExpiry => rintro ⟨hp, k⟩; exact Bool.eq_false_iff.1 (adm hp).2.2.1.2 ((State.agingDue_iff s).2 k)
  | productRefreshExpiry i =>
    rintro ⟨hp, k, l, m⟩
    refine Bool.eq_false_iff.1 ((adm hp).2.2.2 i) ?_
    simp only [Bool.and_eq_true, Timer.due_iff, Option.isSome_iff_ne_none]
    exact ⟨⟨k, l⟩, m⟩
  | stepTimerExpiry =>
    rintro ⟨hp, k, l⟩
    exact Bool.eq_false_iff.1 (round hp).1 (by rw [Bool.and_eq_true, decide_eq_true_eq, Timer.due_iff]; exact ⟨l, k⟩)
  | pauseTimerExpiry =>
    rintro ⟨hp, k, l, m⟩
    exact Bool.eq_false_iff.1 (round hp).2.1 (by rw [Bool.and_eq_true, decide_eq_true_eq, Timer.out_iff]; exact ⟨m, k, l⟩)
  | suspendTimerExpiry =>
    rintro ⟨hp, k, l⟩
    exact Bool.eq_false_iff.1 (round hp).2.2 (by rw [Bool.and_eq_true, decide_eq_true_eq, Timer.due_iff]; exact ⟨l, k⟩)
  | holdBackExpiry => rintro ⟨hp, k⟩; exact Bool.eq_false_iff.1 (link hp).1.1 (Timer.due_iff.2 k)
  | rejoin =>
    rintro ⟨hp, k, l⟩
    exact Bool.eq_false_iff.1 (link hp).1.2 (by rw [Bool.and_eq_true, decide_eq_true_eq, Timer.due_iff]; exact ⟨l, k⟩)
  | statusPeriodExpiry => rintro ⟨hp, k⟩; exact Bool.eq_false_iff.1 (link hp).2.1 (Timer.out_iff.2 k)
  | uptimeTick => rintro ⟨hp, k⟩; exact Bool.eq_false_iff.1 (link hp).2.2 (decide_eq_true k)
  | _ => exact id

/-! ### The millisecond -/

theorem Timer.up_counts (limit : Nat) (t : Timer) : CountedUp limit t (t.up limit) := by
  unfold CountedUp Timer.up; rfl
theorem Timer.down_counts (t : Timer) : CountedDown t t.down := by
  unfold CountedDown Timer.down; rfl

theorem Line.tickRising_level (l : Line) : l.tickRising.level = l.level := by
  unfold Line.tickRising; dsimp only; split <;> rfl
/-- A REQ or CONFIRM line below its 50 ms counts as every line. -/
theorem Line.tickRising_eq {l : Line} (h : l.timer.ms + 1 < 50) : l.tickRising = l.tick := by
  have : (l.tick).timer.due Config.stabilityTime = false := by
    cases k : l.timer.on <;> simp [Line.tick, Timer.up, Timer.due, k, Config.stabilityTime]; omega
  unfold Line.tickRising
  simp [this]

/-- The lines after a millisecond. -/
theorem Port.tick_line (p : Port) (x : Input) :
    p.tick.line x = if x = .stop ∨ x = .reset ∨ ∃ i, x = .prod i then (p.line x).tick else (p.line x).tickRising := by
  cases x <;> simp [Port.tick, Port.line]

theorem Board.tick_lists (b : Board) (r : Res) :
    b.tick.lists[r] = (b.lists[r]).map fun e => { e with life := e.life.map Life.tick } := mapAll_getElem _ _ r

theorem Board.tick_incompleteMs (b : Board) (r : Res) : b.tick.incompleteMs[r] =
    if b.incomplete[r] = true ∧ 7 < b.free.length then min (b.incompleteMs[r] + 1) 8000 else 0 := by
  have h : b.tick.incompleteMs[r] =
      if b.incomplete[r] && b.peerRoom then min (b.incompleteMs[r] + 1) 8000 else 0 := by
    simp only [Board.tick, Fin.getElem_fin, Vector.getElem_ofFn, Config.incompleteLimit]
  rw [h]
  exact if_congr (by rw [Bool.and_eq_true, Board.peerRoom, decide_eq_true_eq]; rfl) rfl rfl

theorem Mode.isRunning_iff (m : Mode) : m.isRunning = true ↔ m ≠ .off ∧ m ≠ .standby := by cases m <;> decide

theorem Verifier.tick_times (v : Verifier) : v.tick = { v with waitMs := v.tick.waitMs, runMs := v.tick.runMs }
    ∧ v.tick.waitMs = (if v.mode = .standby then min (v.waitMs + 1) 65535000 else v.waitMs)
    ∧ v.tick.runMs = if v.mode ≠ .off ∧ v.mode ≠ .standby then min (v.runMs + 1) 65535000 else v.runMs := by
  unfold Verifier.tick
  by_cases h : v.mode.isRunning = true
  · have k := (Mode.isRunning_iff _).1 h
    rw [if_pos h, if_neg k.2, if_pos k]
    exact ⟨rfl, rfl, rfl⟩
  · rw [if_neg h, if_neg (fun k => h ((Mode.isRunning_iff _).2 k))]
    split <;> exact ⟨rfl, rfl, rfl⟩

/-- A millisecond in RUNNING, before the end of the step. -/
theorem State.tick_eq {s : State} (hp : s.loader.phase = .running) : s.tick = s.tickRunning := by
  unfold State.tick; rw [if_pos (State.isRunning_iff.2 hp)]

theorem State.tickRunning_passed (s : State) : Passed s s.tickRunning.finish := by
  obtain ⟨v1, v2, v3⟩ := s.ver.tick_times
  have holds (i : Fin 4) : s.tickRunning.adm.holds[i] =
      { (s.adm.holds[i]) with refresh := (s.adm.holds[i]).refresh.up s.settings.refreshMs } := mapAll_getElem _ _ i
  have lines (x : Input) : s.tickRunning.finish.port.line x = s.port.tick.line x := State.finish_line _ x
  have port : s.tickRunning.finish.port = { s.port.tick with
      outputs := s.tickRunning.finish.port.outputs, indicators := s.tickRunning.finish.port.indicators } := State.finish_port _
  constructor
  case uptime => rw [State.finish_loader]; rfl
  case adm => rw [State.finish_adm]; rfl
  case learning => rw [State.finish_adm]; exact Timer.up_counts _ _
  case settle => rw [State.finish_adm]; exact Timer.up_counts _ _
  case lapse => rw [State.finish_adm]; exact Timer.up_counts _ _
  case refresh => rw [State.finish_adm]; exact Timer.up_counts _ _
  case guard => rw [State.finish_adm]; exact Timer.up_counts _ _
  case aging =>
    rw [State.finish_adm]
    show (if s.agingRuns then min (s.adm.aging + 1) s.settings.agingMs else s.adm.aging) = _
    simp only [State.agingRuns, State.onLine, Bool.and_eq_true, decide_eq_true_eq, and_assoc]
  case holds => intro i; rw [State.finish_adm, holds]; exact ⟨rfl, Timer.up_counts _ _⟩
  case seq => rw [State.finish_seq]; rfl
  case stepTimer => rw [State.finish_seq]; exact Timer.up_counts _ _
  case pauseTimer => rw [State.finish_seq]; exact Timer.down_counts _
  case suspendTimer => rw [State.finish_seq]; exact Timer.up_counts _ _
  case ver => rw [State.finish_ver]; exact v1
  case wait => rw [State.finish_ver]; exact v2
  case run => rw [State.finish_ver]; exact v3
  case port => unfold SamePort; rw [port]; rfl
  case samplePeriod => rw [port]; exact Timer.down_counts _
  case replyTimer => rw [port]; exact Timer.up_counts _ _
  case lines =>
    intro x
    rw [lines, Port.tick_line]
    split
    · rfl
    · exact Line.tickRising_level _
  case steady =>
    intro x h
    have counted : s.port.tick.line x = (s.port.line x).tick := by
      rw [Port.tick_line]
      split
      · rfl
      · rename_i n
        exact Line.tickRising_eq (h.resolve_right n)
    rw [lines, counted]
    exact ⟨rfl, Timer.up_counts _ _⟩
  case link =>
    have := State.finish_sameLink s.tickRunning
    unfold SameLink at this ⊢
    rw [this]
    rfl
  case quiet => rw [State.finish_quiet]; exact Timer.up_counts _ _
  case tx =>
    have := State.finish_sameTx s.tickRunning
    unfold SameTx at this ⊢
    rw [this]
    rfl
  case holdBack =>
    have := State.finish_sameTx s.tickRunning
    unfold SameTx at this
    rw [this]
    exact Timer.up_counts _ _
  case log => rw [State.finish_log]; rfl
  case period => rw [State.finish_log]; exact Timer.down_counts _

/-- A life of n units stands at 0 after 50 n milliseconds and no sooner (R6). -/
theorem Life.repeat_tick (n ms : Nat) :
    Nat.repeat Life.tick ms ⟨n, 0⟩ = if ms < 50 * n then ⟨n - ms / 50, ms % 50⟩ else ⟨0, 0⟩ := by
  induction ms with
  | zero => cases n <;> simp [Nat.repeat]
  | succ ms ih =>
    rw [Nat.repeat, ih]
    by_cases h : ms < 50 * n
    · rw [if_pos h]
      have units : n - ms / 50 ≠ 0 := by omega
      unfold Life.tick
      simp only [if_neg units]
      by_cases k : ms % 50 + 1 < 50
      · rw [if_pos k, if_pos (by omega)]
        congr 1 <;> omega
      · rw [if_neg k]
        by_cases last : ms + 1 < 50 * n
        · rw [if_pos last]; congr 1 <;> omega
        · rw [if_neg last]; congr 1; omega
    · rw [if_neg h, if_neg (by omega)]
      rfl

theorem step_of_empty {s : State} (h : s.pending = []) : step s = idle s := by
  unfold step; rw [h]
theorem idle_of_due {s : State} {c : Instr} (h : s.dueCommand = some c) : idle s = exec c s := by
  unfold idle; rw [h]
theorem idle_of_nothing {s : State} (h : s.dueCommand = none) : idle s = .next s.tick.finish := by
  unfold idle; rw [h]; rfl

/-- With no change of RESET under way, entry and operation come first (R15). -/
theorem State.dueCommand_of_quiet_reset {s : State} (hp : s.loader.phase = .running) (hr : s.port.reset.timer.on = false) :
    s.dueCommand = ((s.board.dueEntry.map Instr.entryExpiry).or (s.updates.ops.head?.map Op.instr)).or
      ((s.dueInput.or s.dueSample).or ((s.dueIncomplete.or s.dueAdmission).or (s.dueRound.or s.dueLink))) := by
  have none : s.dueReset = none := by simp [State.dueReset, Line.due, Timer.due, hr, dueIf]
  unfold State.dueCommand
  rw [none, if_pos (State.isRunning_iff.2 hp), Option.none_or]

end Sys2Proof.Machine

open Sys2Proof Sys2Proof.Machine

/-- Settles O2: each group of `dueCommand` offers what is ripe, and where all are empty nothing is. -/
theorem idleStepTakesWhatIsDue : Obligations.IdleStepTakesWhatIsDue := by
  refine ⟨fun s h => ⟨fun c k => (step_of_empty h).trans (idle_of_due k), fun k => (step_of_empty h).trans (idle_of_nothing k)⟩,
    fun s h hp hr => ⟨fun due => ?_, fun none op rest head => ?_⟩, fun s h hp k => ?_, fun s h hp k => ?_,
    fun s => ⟨s.dueCommand_ripe, State.nothing_ripe⟩, Life.repeat_tick⟩
  · have order := State.dueCommand_of_quiet_reset hp hr
    cases e : s.board.dueEntry with
    | none =>
      obtain ⟨r, x, hx, k⟩ := due
      exact absurd k (Board.dueEntry_eq_none.1 e r x hx)
    | some n =>
      obtain ⟨r, x, hx, rfl, k⟩ := Board.dueEntry_some e
      rw [e] at order
      exact ⟨r, x, hx, k, (step_of_empty h).trans (idle_of_due order)⟩
  · have order := State.dueCommand_of_quiet_reset hp hr
    rw [Board.dueEntry_eq_none.2 none, head] at order
    exact (step_of_empty h).trans (idle_of_due order)
  · refine ⟨_, (step_of_empty h).trans (idle_of_nothing k), ?_⟩
    rw [State.tick_eq hp, State.finish_updates, State.finish_settings, State.finish_store, State.finish_pending, State.finish_board]
    exact ⟨rfl, rfl, rfl, h, rfl, rfl, rfl, s.board.tick_lists, s.board.tick_incompleteMs⟩
  · exact ⟨_, (step_of_empty h).trans (idle_of_nothing k), State.tick_eq hp ▸ s.tickRunning_passed⟩

end

section
/-! Results of the list controller (R7, R22, R32): what one brings to a node without an own step, which evaluation it asks for, and what
stays as it was. With it the operations that take entries off the board (R14, R15, R17) and those that change a flag (R16, R20). -/

namespace Sys2Proof.Machine

/-! ### Results -/

section
variable {s : State} {touched : List Res}

/-- Evaluation is possible, and the pairs are what they were, wherever the unit's state and the link state are. -/
theorem State.canEvaluate_congr {s t : State} (ha : t.adm = s.adm) (hl : t.link.state = s.link.state) :
    t.canEvaluate = s.canEvaluate := by unfold State.canEvaluate; rw [ha, hl]
theorem State.ownPairs_congr {s t : State} (h : t.adm.standing = s.adm.standing) : t.ownPairs = s.ownPairs := by
  unfold State.ownPairs; rw [h]

theorem mem_resourcesOf {pairs : List Pair} {r : Res} : r ∈ resourcesOf pairs ↔ ∃ p ∈ pairs, p.res = r := List.mem_map

theorem State.actVerdict_of_not_running (h : s.adm.own ≠ .running) (v) : s.actVerdict v = s := by
  unfold State.actVerdict; split <;> [exact if_neg h; rfl]

/-- A node without an own step does nothing with a result. -/
theorem State.hallResult_of_none (h : s.adm.own = .none) (touched) : s.hallResult touched = s := by
  have quiet : s.notice touched = s := by
    unfold State.notice State.requestEval
    simp [h, OwnState.evaluated]
  unfold State.hallResult
  rw [quiet, State.actVerdict_of_not_running (by rw [h]; decide)]

/-- An evaluation is on its way after a request that could be made. -/
theorem State.requestEval_isSome (can : s.canEvaluate = true) (ev : s.adm.own.evaluated = true) (b : Bool) :
    (s.requestEval b).adm.evalReq.isSome = true := by
  rcases s.requestEval_cases b with ⟨n, -⟩ | ⟨-, -, e⟩ | ⟨-, k, e⟩
  · exact absurd ⟨can, ev⟩ n
  · rw [e, State.placeOp_adm]; split <;> rfl
  · rw [e]; exact Option.isSome_iff_ne_none.2 k

theorem OwnState.evaluated_iff {o : OwnState} : o.evaluated = true ↔ o = .waiting ∨ o = .claiming ∨ o = .runPending := by
  cases o <;> simp [OwnState.evaluated]

/-- A notice that names a resource of the own step asks for an evaluation (R32). -/
theorem State.notice_requests (can : s.canEvaluate = true) (ev : s.adm.own.evaluated = true)
    (named : ∃ p ∈ s.ownPairs, p.res ∈ touched) : (s.notice touched).adm.evalReq.isSome = true := by
  obtain ⟨p, hp, hr⟩ := named
  unfold State.notice
  rw [if_pos (List.any_eq_true.2 ⟨p.res, hr, decide_eq_true (mem_resourcesOf.2 ⟨p, hp, rfl⟩)⟩)]
  exact State.requestEval_isSome can ev _
theorem State.notice_own : (s.notice touched).adm.own = s.adm.own := by
  unfold State.notice; split <;> [exact (s.requestEval_step _).own; rfl]
theorem State.hallResult_requests (can : s.canEvaluate = true) (ev : s.adm.own.evaluated = true)
    (named : ∃ p ∈ s.ownPairs, p.res ∈ touched) : (s.hallResult touched).adm.evalReq.isSome = true := by
  unfold State.hallResult
  rw [State.actVerdict_of_not_running]
  · exact State.notice_requests can ev named
  · rw [State.notice_own]; exact fun k => by rw [k] at ev; cases ev
end

/-! ### An operation of the hall is carried out -/

/-- What an operation of the hall leaves, once the board `b` and its flags stand: `touched` are the resources of its result. -/
structure HallDone (s v : State) (rest : List Op) (touched : List Res) (t : State) : Prop where
  frame : Untouched boardReach s t
  queue : rest <+: t.updates.ops
  idle : s.adm.own = .none → Untouched [.updates] v t ∧ t.updates.ops = rest
  board : t.board = v.board
  overcommit : t.flag .overcommit = v.flag .overcommit
  flags : ∀ f, v.flag f = true → t.flag f = true
  asks : s.adm.own = .waiting ∨ s.adm.own = .claiming ∨ s.adm.own = .runPending → s.canEvaluate = true →
    (∃ p ∈ s.ownPairs, p.res ∈ touched) → t.adm.evalReq.isSome = true

section
variable {s v : State} (k : Untouched [.board, .log] s v)
include k

/-- The state in which the result of an operation is acted on is, for the admission unit, the one before. -/
theorem Untouched.sameUnit : v.adm = s.adm ∧ v.link.state = s.link.state ∧ v.updates = s.updates := by
  refine ⟨k.adm (by decide), ?_, k.updates (by decide)⟩
  rw [k.link (by decide)]

/-- The result of an operation that has left the queue, acted on in `u`. -/
theorem HallDone.of_result {u : State} {touched rest} (q : Untouched [.updates] v u) (ops : u.updates.ops = rest) :
    HallDone s v rest touched (u.hallResult touched).finish := by
  obtain ⟨ha, hl, -⟩ := k.sameUnit
  have ua : u.adm = s.adm := (q.adm (by decide)).trans ha
  have ul : u.link.state = s.link.state := by rw [q.link (by decide)]; exact hl
  have placing := (Placing.refl u).hallResult touched
  refine ⟨?_, ?_, fun none => ?_, ?_, ?_, fun f h => ?_, fun own can named => ?_⟩
  · exact ((k.mono (by decide)).trans ((q.mono (by decide)).trans (placing.untouched.mono (by decide)))).finish
  · rw [State.finish_updates, ← ops]; exact placing.ops
  · rw [State.hallResult_of_none (ua ▸ none)]
    exact ⟨q.finish, by rw [State.finish_updates, ops]⟩
  · rw [State.finish_board, (State.fixed_eq placing.fixed).2.2.2.1, q.board (by decide)]
  · have : (u.hallResult touched).finish.flag .overcommit = (u.hallResult touched).flag .overcommit := by
      unfold State.flag; rw [State.finish_log]
    rw [this, placing.overcommit]
    unfold State.flag
    rw [q.log (by decide)]
  · have : u.flag f = true := by unfold State.flag at h ⊢; rwa [q.log (by decide)]
    have := placing.flags f this
    unfold State.flag at this ⊢
    rwa [State.finish_log]
  · rw [State.finish_adm]
    refine State.hallResult_requests ?_ ?_ ?_
    · rw [State.canEvaluate_congr ua ul]; exact can
    · rw [ua, OwnState.evaluated_iff]; exact own
    · rw [State.ownPairs_congr (s := s) (by rw [ua])]; exact named

/-- The head of the queue carried out. -/
theorem HallDone.of_head {op rest touched} (head : s.updates.ops = op :: rest) :
    HallDone s v rest touched (v.dequeue.hallResult touched).finish :=
  .of_result k (Untouched.dequeue v) (by rw [State.dequeue_ops, k.sameUnit.2.2, head]; rfl)
/-- An expiry, which leaves the queue. -/
theorem HallDone.of_expiry {touched} : HallDone s v s.updates.ops touched (v.hallResult touched).finish :=
  .of_result k (.refl _ v) (by rw [k.sameUnit.2.2])
end

/-! ### An own operation is carried out -/

/-- What an own operation leaves, once the board of `v` and its flags stand: its result is handed back, and what follows, `u`,
places own operations. -/
structure OwnDone (s v : State) (rest : List Op) (u t : State) : Prop where
  frame : Untouched boardReach s t
  queue : rest <+: t.updates.ops
  still : u = v.dequeue.opDone → Untouched [.board, .updates, .adm, .log] s t
  board : t.board = v.board
  overcommit : t.flag .overcommit = v.flag .overcommit

/-- The step as the result of an own operation finds it. -/
theorem State.handedBack_step (v : State) : SameStep v.adm v.dequeue.opDone.adm := by
  have := v.dequeue.opDone_step
  rwa [State.dequeue_adm] at this

theorem OwnDone.of_placing {s v u : State} {op rest} (k : Untouched [.board, .log] s v) (head : s.updates.ops = op :: rest)
    (placing : Placing v.dequeue.opDone u) : OwnDone s v rest u u.finish := by
  have u1 := Untouched.dequeue v
  have u2 := Untouched.opDone v.dequeue
  have before : Untouched [.board, .updates, .adm, .log] s v.dequeue.opDone :=
    (k.mono (by decide)).trans ((u1.mono (by decide)).trans (u2.mono (by decide)))
  refine ⟨?_, ?_, fun e => e ▸ before.finish, ?_, ?_⟩
  · exact ((before.mono (by decide)).trans (placing.untouched.mono (by decide))).finish
  · rw [State.finish_updates]
    refine List.IsPrefix.trans ?_ placing.ops
    rw [State.opDone_ops, State.dequeue_ops, k.sameUnit.2.2, head]
    exact List.prefix_append _ _
  · rw [State.finish_board, (State.fixed_eq placing.fixed).2.2.2.1, u2.board (by decide), u1.board (by decide)]
  · unfold State.flag
    rw [State.finish_log]
    refine placing.overcommit.trans ?_
    unfold State.flag
    rcases State.opDone_log v.dequeue with h | h <;> simp [h, Log.isSet_setFlag]

/-! ### Entries leave -/

/-- Entries that meet a condition leave the named resources, those that are skipped apart: what the release and the own remove share. -/
theorem unlinks_lists (skip : Res → Prop) [DecidablePred skip] (p : Entry → Bool) (rs : List Res) (b : Board) (r : Res) :
    (rs.foldl (fun b r => if skip r then b else b.unlink r p) b).lists[r] =
      if r ∈ rs ∧ ¬ skip r then (b.lists[r]).filter fun e => !p e else b.lists[r] := by
  induction rs generalizing b with
  | nil => simp
  | cons q qs ih =>
    rw [List.foldl_cons, ih]
    by_cases hs : skip q
    · rw [if_pos hs]
      by_cases h : r = q
      · simp [h, hs]
      · simp [h]
    · rw [if_neg hs, Board.unlink_lists]
      by_cases h : r = q
      · subst h; simp [hs]
      · simp [h]
theorem unlinks_free (skip : Res → Prop) [DecidablePred skip] (p : Entry → Bool) (rs : List Res) (b : Board) :
    b.free <+: (rs.foldl (fun b r => if skip r then b else b.unlink r p) b).free := by
  refine List.foldlRecOn (motive := fun c : Board => b.free <+: c.free) rs _ List.prefix_rfl fun c hc r _ => ?_
  split <;> [exact hc; exact hc.trans (List.prefix_append _ _)]

theorem Board.releaseAll_lists (capacity owner role rs) (b : Board) (r : Res) :
    (b.releaseAll capacity owner role rs).lists[r] =
      if r ∈ rs ∧ capacity[r] ≠ 0 then (b.lists[r]).filter fun e => decide (¬(e.owner = owner ∧ e.role = role)) else b.lists[r] := by
  unfold Board.releaseAll
  rw [unlinks_lists fun r => capacity[r] = 0]
  simp only [decide_not, ne_eq]
theorem Board.releaseAll_free (capacity owner role rs) (b : Board) : b.free <+: (b.releaseAll capacity owner role rs).free :=
  unlinks_free _ _ rs b

theorem Board.ownRemove_eq (b : Board) (role rs) : b.ownRemove role rs =
    rs.foldl (fun b r => if False then b else b.unlink r fun e => decide (e.own = true ∧ e.role = role)) b := by
  simp only [if_false]; rfl
theorem Board.ownRemove_lists (role rs) (b : Board) (r : Res) : (b.ownRemove role rs).lists[r] =
    if r ∈ rs then (b.lists[r]).filter fun e => decide (¬(e.own = true ∧ e.role = role)) else b.lists[r] := by
  rw [Board.ownRemove_eq, unlinks_lists fun _ => False]
  simp only [decide_not, not_false_eq_true, and_true]
theorem Board.ownRemove_free (role rs) (b : Board) : b.free <+: (b.ownRemove role rs).free := by
  rw [Board.ownRemove_eq]; exact unlinks_free _ _ rs b

/-- The entry found by its number is the only one with it. -/
theorem Board.Accounted.numbered {b : Board} (h : b.Accounted) {n : Fin 64} {r : Res} {e : Entry} (at_ : b.whereIs n = some (r, e)) :
    e ∈ b.lists[r] ∧ ((b.lists[r]).filter fun x => decide (x.num = n)).map Entry.num = [n] := by
  obtain ⟨q, -, found⟩ := List.exists_of_findSome?_eq_some at_
  obtain ⟨x, hx, e1⟩ := Option.map_eq_some_iff.1 found
  obtain ⟨rfl, rfl⟩ := Prod.mk.inj e1
  have mem := List.mem_of_find?_eq_some hx
  have num : x.num = n := by simpa using List.find?_some hx
  have once : (numbersOn b.lists[q]).Nodup := (h.nodup q).of_append_left
  refine ⟨mem, ?_⟩
  have inside : n ∈ numbersOn b.lists[q] := num ▸ List.mem_map_of_mem mem
  have := List.filter_eq n (l := numbersOn b.lists[q])
  rw [List.count_eq_one_of_mem once inside, numbersOn, List.filter_map] at this
  simpa [Function.comp_def, eq_comm] using this

end Sys2Proof.Machine

open Sys2Proof Sys2Proof.Machine

/-- Settles O26: a release and an own remove unlink on each named resource, an expiry unlinks the one entry with its number. -/
theorem entriesLeaveTheBoard : Obligations.EntriesLeaveTheBoard := by
  refine ⟨fun s owner role set rest head => ?_, fun s role rs rest head => ?_, fun s n r e acc at_ due => ?_, fun s n none => ?_⟩
  · have run : ∃ v t, exec .applyRelease s = .next t ∧ Untouched [.board] s v ∧ HallDone s v rest (setMembers set) t
        ∧ v.board = if owner = 0 ∨ owner = s.settings.node then s.board
          else (s.board.releaseAll s.settings.capacity owner role (setMembers set)).holdTimers := by
      have e : exec .applyRelease s = done (s.carryRelease owner role set) := by
        show done _ = _; rw [head]
      rw [e]
      unfold State.carryRelease
      dsimp only
      by_cases h : owner = 0 ∨ owner = s.settings.node
      · rw [if_pos h]
        exact ⟨s, _, rfl, .refl _ _, .of_head (.refl _ _) head, (if_pos h).symm⟩
      · rw [if_neg h]
        exact ⟨_, _, rfl, Untouched.onBoard s _, .of_head ((Untouched.onBoard s _).mono (by decide)) head, (if_neg h).symm⟩
    obtain ⟨v, t, e, only, k, board⟩ := run
    refine ⟨t, e, k.frame, k.queue, fun none => ⟨?_, (k.idle none).2⟩, ?_, ?_, ?_, ?_, fun r => ?_⟩
    · exact (only.mono (by decide)).trans ((k.idle none).1.mono (by decide))
    · rw [k.board, board]; split <;> [rfl; rw [Board.holdTimers_inhibit, (SameFlags.releaseAll _ _ _ _ _).inhibit]]
    · rw [k.board, board]; split <;> [rfl; rw [Board.holdTimers_incomplete, (SameFlags.releaseAll _ _ _ _ _).incomplete]]
    · rw [k.board, board]; split <;> [exact List.prefix_rfl; (rw [Board.holdTimers_free]; exact Board.releaseAll_free _ _ _ _ _)]
    · rw [k.overcommit]; unfold State.flag; rw [only.log (by decide)]
    · rw [k.board, board]
      by_cases h : owner = 0 ∨ owner = s.settings.node
      · rw [if_pos h, if_neg (by rcases h with h | h <;> simp [h])]
      · rw [if_neg h, Board.holdTimers_lists, Board.releaseAll_lists]
        simp only [not_or] at h
        simp only [mem_setMembers, ne_eq, h, not_false_eq_true, true_and]
  · have e : exec .ownRemove s = done (s.carryRemove role rs) := by show done _ = _; rw [head]
    have k : OwnDone s (s.onBoard fun b => (b.ownRemove role rs).holdTimers) rest _ (s.carryRemove role rs).finish :=
      .of_placing ((Untouched.onBoard s _).mono (by decide)) head ((Placing.refl _).actVerdict _)
    refine ⟨_, e, k.frame, k.queue, fun still => k.still (State.actVerdict_of_not_running ?_ _), ?_, ?_, ?_, k.overcommit, fun r => ?_⟩
    · rw [(State.handedBack_step _).own]; exact still
    · rw [k.board, State.onBoard_board, Board.holdTimers_inhibit, (SameFlags.ownRemove _ _ _).inhibit]
    · rw [k.board, State.onBoard_board, Board.holdTimers_incomplete, (SameFlags.ownRemove _ _ _).incomplete]
    · rw [k.board, State.onBoard_board, Board.holdTimers_free]; exact Board.ownRemove_free _ _ _
    · rw [k.board, State.onBoard_board, Board.holdTimers_lists, Board.ownRemove_lists]
  · obtain ⟨mem, alone⟩ := acc.numbered at_
    have dueE : e.due = true := decide_eq_true due
    have run : exec (.entryExpiry n) s = done ((((s.onBoard fun b => (b.unlink r fun x => decide (x.num = n)).holdTimers).stickyIf
        (decide (e.state = .running)) .peerLapsed)).hallResult [r]) := by
      show done _ = _; rw [at_]; exact congrArg done (if_pos dueE)
    have only : Untouched [.board, .log] s ((s.onBoard fun b => (b.unlink r fun x => decide (x.num = n)).holdTimers).stickyIf
        (decide (e.state = .running)) .peerLapsed) :=
      ((Untouched.onBoard s _).mono (by decide)).trans ((Untouched.stickyIf _ _ _).mono (by decide))
    have k := HallDone.of_expiry (touched := [r]) only
    have board : ((s.onBoard fun b => (b.unlink r fun x => decide (x.num = n)).holdTimers).stickyIf
        (decide (e.state = .running)) .peerLapsed).board = (s.board.unlink r fun x => decide (x.num = n)).holdTimers := by
      unfold State.stickyIf; split <;> rfl
    refine ⟨_, run, k.frame, k.queue, fun none => ?_, ?_, ?_, ?_, fun q => ?_, fun running => k.flags _ ?_, ?_⟩
    · rw [State.hallResult_of_none (by rw [only.sameUnit.1]; exact none)]
      exact only.finish
    · rw [k.board, board, Board.holdTimers_inhibit]; rfl
    · rw [k.board, board, Board.holdTimers_incomplete]; rfl
    · rw [k.board, board, Board.holdTimers_free, Board.unlink_free, alone]
    · rw [k.board, board, Board.holdTimers_lists, Board.unlink_lists]
      by_cases h : q = r
      · simp [h]
      · simp [h]
    · simp [running, State.stickyIf, State.flag, State.sticky, Log.isSet_setFlag]
    · rw [k.overcommit]
      unfold State.stickyIf
      split <;> simp [State.flag, State.sticky, Log.isSet_setFlag]
  · have run : exec (.entryExpiry n) s = done s := by
      show done _ = _
      cases h : s.board.whereIs n with
      | none => rfl
      | some x =>
        obtain ⟨r, e⟩ := x
        exact congrArg done (if_neg fun k => none r e h (of_decide_eq_true k))
    exact ⟨_, run, (Untouched.refl [] s).finish⟩

/-- Settles O27. -/
theorem boardFlagsChange : Obligations.BoardFlagsChange := by
  refine ⟨fun s set rest value c hc => ?_, fun s r flag room due => ?_, fun s r early => ?_⟩
  · have carried : exec c s = done (s.carryInhibit value set) ∧ ∃ op, s.updates.ops = op :: rest := by
      rcases hc with ⟨rfl, rfl, head⟩ | ⟨rfl, rfl, head⟩
      · exact ⟨by show done _ = _; rw [head], _, head⟩
      · exact ⟨by show done _ = _; rw [head], _, head⟩
    obtain ⟨run, op, head⟩ := carried
    have only : Untouched [.board, .log] s ((s.onBoard fun b => b.setInhibit value (setMembers set)).sticky .inhibitChanged) :=
      ((Untouched.onBoard s _).mono (by decide)).trans ((Untouched.sticky _ _).mono (by decide))
    have k := HallDone.of_head (touched := setMembers set) only head
    refine ⟨_, run, k.frame, k.queue, fun none => ⟨?_, (k.idle none).2⟩, ?_, k.flags _ ?_, fun r => ?_, fun own can named => ?_⟩
    · exact (only.mono (by decide)).trans ((k.idle none).1.mono (by decide))
    · rw [State.finish_board, (State.fixed_eq (s.setInhibit_carried value set)).2.2.2.1]
      exact Board.setInhibit_eq _ _ _
    · simp [State.flag, State.sticky, Log.isSet_setFlag]
    · rw [State.finish_board, (State.fixed_eq (s.setInhibit_carried value set)).2.2.2.1]
      exact (Board.setInhibit_get _ _ _ _).trans (if_congr mem_setMembers rfl rfl)
    · obtain ⟨p, hp, hr⟩ := named
      exact k.asks own can ⟨p, hp, mem_setMembers.2 hr⟩
  · have dueR : s.board.incompleteDue r = true := by
      simp only [Board.incompleteDue, Bool.and_eq_true, decide_eq_true_eq]; exact ⟨⟨flag, room⟩, due⟩
    have run : exec (.incompleteTimerExpiry r) s = done ((s.onBoard fun b => { b with
        incomplete := modAt b.incomplete r fun _ => false
        incompleteMs := modAt b.incompleteMs r fun _ => 0 }).notice [r]) := congrArg done (if_pos dueR)
    have placing (v : State) := (Placing.refl v).notice [r]
    have board (v : State) : (v.notice [r]).board = v.board := (State.fixed_eq (placing v).fixed).2.2.2.1
    refine ⟨_, run, ?_, ?_, ?_, ?_, fun q hq => ?_, fun own can named => ?_⟩
    · have asked (v : State) : Untouched [.board, .updates, .adm, .log] v (v.notice [r]) := by
        unfold State.notice
        split <;> [exact (Untouched.requestEval _ _).mono (by decide); exact .refl _ _]
      exact (((Untouched.onBoard s _).mono (by decide)).trans (asked _)).finish
    · rw [State.finish_board, board]; rfl
    · rw [State.finish_board, board]; simp
    · rw [State.finish_board, board]; simp
    · rw [State.finish_board, board]; simp [hq]
    · rw [State.finish_adm]
      obtain ⟨p, hp, hr⟩ := named
      exact State.notice_requests can (OwnState.evaluated_iff.2 own) ⟨p, hp, by simp [hr]⟩
  · have run : exec (.incompleteTimerExpiry r) s = done s := by
      refine congrArg done (if_neg fun k => ?_)
      have : 8000 ≤ s.board.incompleteMs[r] := of_decide_eq_true (Bool.and_eq_true_iff.1 k).2
      omega
    exact ⟨_, run, (Untouched.refl [] s).finish⟩

end

section
/-! What the admission unit does with the outcome of an evaluation (R32, R33, R36, R39, R40). -/

namespace Sys2Proof.Machine

/-! ### Reports -/

/-- A report to the round sequencer leaves the admission unit, the update queue and the own step slot. -/
structure Reported (s t : State) : Prop where
  adm : t.adm = s.adm
  updates : t.updates = s.updates
  own : t.tx.own = s.tx.own

section
variable (s : State)
theorem Reported.refl : Reported s s := ⟨rfl, rfl, rfl⟩
theorem Reported.setRound {s t : State} (h : Reported s t) (r) : Reported s (t.setRound r) :=
  ⟨by rw [State.setRound_adm, h.adm], by rw [State.setRound_updates, h.updates], by rw [(SameTx_own_setRound t r).1, h.own]⟩
theorem State.reportClaiming_reported : Reported s s.reportClaiming := by
  unfold State.reportClaiming
  split
  · split <;> [exact (Reported.refl s).setRound _; exact .refl s]
  · exact .refl s
theorem State.restartAttempt_reported : Reported s s.restartAttempt :=
  ⟨by simp [State.restartAttempt], by simp [State.restartAttempt], (SameTx_own_setRound _ _).1⟩
theorem State.reportWaiting_reported : Reported s s.reportWaiting := by
  unfold State.reportWaiting
  split
  · split <;> [exact (Reported.refl s).setRound _; exact s.restartAttempt_reported; exact .refl s]
  · exact .refl s

variable {s}
/-- A CLAIMING report of the current attempt moves a round in WAITING, a WAITING report one in CLAIMING (R78). -/
theorem State.reportClaiming_state (tag : s.tagCurrent = true) (h : s.seq.state = .waiting) :
    s.reportClaiming.seq.state = .claiming := by
  unfold State.reportClaiming
  rw [if_pos tag, h, State.setRound_seq]
theorem State.reportWaiting_state (tag : s.tagCurrent = true) (h : s.seq.state = .claiming) :
    s.reportWaiting.seq.state = .waiting := by
  unfold State.reportWaiting
  rw [if_pos tag, h, State.setRound_seq]
end

/-! ### The moves of the own step -/

/-- The own step after a move: its state and the content of its slot; no evaluation requested or wanted that was not before. -/
structure Stepped (s t : State) (o : OwnState) (sent : Option OwnFrame) : Prop where
  own : t.adm.own = o
  sent : t.tx.own = sent
  evalReq : t.adm.evalReq = s.adm.evalReq
  wanted : t.adm.wanted = s.adm.wanted
  standing : t.adm.standing = s.adm.standing

section
variable (s : State)
theorem Stepped.refl : Stepped s s s.adm.own s.tx.own := ⟨rfl, rfl, rfl, rfl, rfl⟩
theorem Stepped.reported {s t u : State} {o sent} (h : Stepped s t o sent) (k : Reported t u) : Stepped s u o sent :=
  ⟨by rw [k.adm, h.own], by rw [k.own, h.sent], by rw [k.adm, h.evalReq], by rw [k.adm, h.wanted], by rw [k.adm, h.standing]⟩
theorem State.tagCurrent_congr {s t : State} (h1 : t.adm.standing = s.adm.standing) (h2 : t.seq.tag = s.seq.tag) :
    t.tagCurrent = s.tagCurrent := by unfold State.tagCurrent; rw [h1, h2]

/-- The own step has a frame placed, its entries update, and enters a state. -/
def State.announceAs (e : EntryState) (st : AnnState) (life : Nat) (o : OwnState) : State :=
  ((s.updateOwn e).placeAnnounce st life).onAdm (Admission.enter o)

theorem State.announceAs_spec (e st life o) :
    Stepped s (s.announceAs e st life o) o (some (.announce st s.ownKey life s.ownPairs))
      ∧ (s.announceAs e st life o).seq = s.seq
      ∧ .ownUpdate .cip s.ownPairs s.ownKey e ∈ (s.announceAs e st life o).updates.ops ++ (s.announceAs e st life o).adm.waiting := by
  have step := s.placeOp_step (.ownUpdate .cip s.ownPairs s.ownKey e)
  have key : (s.updateOwn e).ownKey = s.ownKey := by
    unfold State.ownKey State.updateOwn
    rw [step.urgency, (State.fixed_eq (s.fixed_placeOp _)).2.1]
  have pairs : (s.updateOwn e).ownPairs = s.ownPairs := State.ownPairs_congr step.standing
  refine ⟨⟨rfl, ?_, ?_, ?_, step.standing⟩, State.placeOp_seq _ _, ?_⟩
  · show some (OwnFrame.announce st (s.updateOwn e).ownKey life (s.updateOwn e).ownPairs) = _
    rw [key, pairs]
  · show (s.updateOwn e).adm.evalReq = _
    unfold State.updateOwn
    rw [State.placeOp_adm]; split <;> rfl
  · show (s.updateOwn e).adm.wanted = _
    unfold State.updateOwn
    rw [State.placeOp_adm]; split <;> rfl
  · show _ ∈ (s.updateOwn e).updates.ops ++ (s.updateOwn e).adm.waiting
    unfold State.updateOwn
    rw [State.placeOp_ops, State.placeOp_adm]
    split <;> simp

theorem State.claim_eq : s.claim = (s.announceAs .claiming .claim s.settings.lapseLife .claiming).reportClaiming := rfl
theorem State.yieldStep_eq : s.yieldStep = (s.announceAs .waiting .wait s.settings.leaseLife .waiting).reportWaiting := rfl
end

/-- What a claim does (R36) and what a yield does (R39): the frame, the update of the own entries, the report. -/
structure Moved (s t : State) (o : OwnState) (e : EntryState) (sent : OwnFrame) (before after : RoundState) : Prop where
  step : Stepped s t o (some sent)
  placed : .ownUpdate .cip s.ownPairs s.ownKey e ∈ t.updates.ops ++ t.adm.waiting
  report : s.tagCurrent = true → s.seq.state = before → t.seq.state = after

section
variable {s : State}

theorem State.claim_spec : Moved s s.claim .claiming .claiming (.announce .claim s.ownKey s.settings.lapseLife s.ownPairs)
    .waiting .claiming := by
  obtain ⟨step, seq, placed⟩ := s.announceAs_spec .claiming .claim s.settings.lapseLife .claiming
  have rep := (s.announceAs .claiming .claim s.settings.lapseLife .claiming).reportClaiming_reported
  rw [State.claim_eq]
  refine ⟨step.reported rep, by rw [rep.updates, rep.adm]; exact placed, fun tag h => State.reportClaiming_state ?_ ?_⟩
  · rw [State.tagCurrent_congr step.standing (by rw [seq])]; exact tag
  · rw [seq]; exact h
theorem State.yieldStep_spec : Moved s s.yieldStep .waiting .waiting (.announce .wait s.ownKey s.settings.leaseLife s.ownPairs)
    .claiming .waiting := by
  obtain ⟨step, seq, placed⟩ := s.announceAs_spec .waiting .wait s.settings.leaseLife .waiting
  have rep := (s.announceAs .waiting .wait s.settings.leaseLife .waiting).reportWaiting_reported
  rw [State.yieldStep_eq]
  refine ⟨step.reported rep, by rw [rep.updates, rep.adm]; exact placed, fun tag h => State.reportWaiting_state ?_ ?_⟩
  · rw [State.tagCurrent_congr step.standing (by rw [seq])]; exact tag
  · rw [seq]; exact h
theorem State.runPending_spec :
    Stepped s s.runPending .runPending (some (.announce .run s.ownKey s.settings.leaseLife s.ownPairs))
      ∧ s.runPending.adm.lapse = s.adm.lapse := by
  have rep := ((s.placeAnnounce .run s.settings.leaseLife).onAdm (Admission.enter .runPending)).reportClaiming_reported
  have unit : s.runPending.adm = ((s.placeAnnounce .run s.settings.leaseLife).onAdm (Admission.enter .runPending)).adm := rep.adm
  exact ⟨⟨by rw [unit]; rfl, rep.own, by rw [unit]; rfl, by rw [unit]; rfl, by rw [unit]; rfl⟩, by rw [unit]; rfl⟩
theorem State.stayWaiting_spec (h : s.adm.own = .waiting) :
    Stepped s s.stayWaiting .waiting
        (if s.waitStands then s.tx.own else some (.announce .wait s.ownKey s.settings.leaseLife s.ownPairs))
      ∧ s.stayWaiting.seq = s.seq := by
  unfold State.stayWaiting
  split <;> exact ⟨⟨h, rfl, rfl, rfl, rfl⟩, rfl⟩

/-- An outcome never starts a run, and it asks for no further evaluation. -/
theorem State.actOutcome_stepped (h : s.adm.own ≠ .running) (fit b) :
    ∃ o sent, Stepped s (s.actOutcome fit b) o sent ∧ o ≠ .running := by
  unfold State.actOutcome
  split
  · rename_i e; exact ⟨_, _, .refl s, by rw [e]; decide⟩
  · exact absurd ‹_› h
  · rename_i e
    split <;> [exact ⟨_, _, State.claim_spec.step, by decide⟩; exact ⟨_, _, (State.stayWaiting_spec e).1, by decide⟩]
  · rename_i e
    split
    · split <;> [exact ⟨_, _, State.runPending_spec.1, by decide⟩; exact ⟨_, _, .refl s, by rw [e]; decide⟩]
    · exact ⟨_, _, State.yieldStep_spec.step, by decide⟩
  · rename_i e
    split <;> [exact ⟨_, _, .refl s, by rw [e]; decide⟩; exact ⟨_, _, State.yieldStep_spec.step, by decide⟩]
end

/-! ### The operation -/

/-- The evaluation has left the queue, its request is no longer outstanding, and its result is handed back. -/
def State.answered (s : State) : State := (s.dequeue.onAdm fun a => { a with evalReq := none }).opDone

section
variable (s : State)
theorem State.answered_step : SameStep s.adm s.answered.adm := by
  have k := (s.dequeue.onAdm fun a => { a with evalReq := none }).opDone_step
  have a : (s.dequeue.onAdm fun a => { a with evalReq := none }).adm = { s.adm with evalReq := none } := by
    rw [State.onAdm_adm, State.dequeue_adm]
  rw [a] at k
  exact ⟨k.own, k.standing, k.urgency, k.aging, k.holds, k.state, k.learning, k.stay, k.last, k.settle, k.lapse, k.refresh, k.guard⟩
theorem State.answered_request : s.answered.adm.evalReq = none ∧ s.answered.adm.wanted = s.adm.wanted := by
  unfold State.answered
  rw [State.opDone_adm]
  split <;> exact ⟨rfl, by rw [State.onAdm_adm, State.dequeue_adm]⟩
theorem State.answered_tx : s.answered.tx = s.tx := by simp [State.answered]
theorem State.answered_seq : s.answered.seq = s.seq := by simp [State.answered]
theorem State.answered_ver : s.answered.ver = s.ver := by simp [State.answered]
theorem State.answered_settings : s.answered.settings = s.settings :=
  (State.fixed_eq (by simp [State.answered] : s.answered.fixed = s.fixed)).2.1
theorem State.answered_untouched : Untouched [.updates, .adm, .log] s s.answered :=
  ((Untouched.dequeue s).mono (by decide)).trans
    (((Untouched.onAdm s.dequeue _).mono (by decide)).trans (Untouched.opDone _))
theorem State.answered_ops {op rest} (head : s.updates.ops = op :: rest) : rest <+: s.answered.updates.ops := by
  unfold State.answered
  rw [State.opDone_ops, State.onAdm_updates, State.dequeue_ops, head]
  exact List.prefix_append _ _
theorem State.answered_ownKey : s.answered.ownKey = s.ownKey := by
  unfold State.ownKey; rw [s.answered_step.urgency, s.answered_settings]
theorem State.answered_ownPairs : s.answered.ownPairs = s.ownPairs := State.ownPairs_congr s.answered_step.standing
theorem State.answered_tagCurrent : s.answered.tagCurrent = s.tagCurrent :=
  State.tagCurrent_congr s.answered_step.standing (by rw [s.answered_seq])
theorem State.answered_waitStands : s.answered.waitStands = s.waitStands := by
  unfold State.waitStands; rw [s.answered_step.last, s.answered_tx, s.answered_ownKey, s.answered_ownPairs]
end

/-- With no further evaluation wanted, an evaluate operation is its outcome, acted on in its own stay while evaluation is possible. -/
theorem State.carryEvaluate_eq {s : State} {q : EvalReq} (req : s.adm.evalReq = some q) (wanted : s.adm.wanted = false)
    (own : s.adm.own ≠ .running) :
    s.carryEvaluate =
      if s.canEvaluate = true ∧ q.stay = s.adm.stay ∧ fitTest s.settings.capacity s.board ≠ .empty
      then s.answered.actOutcome (fitTest s.settings.capacity s.board) q.settle else s.answered := by
  have quiet {t : State} {o sent} (h : Stepped s.answered t o sent) (ho : o ≠ .running) (v) : t.requestWanted.actVerdict v = t := by
    have w : t.adm.wanted = false := by rw [h.wanted, s.answered_request.2, wanted]
    have none : t.requestWanted = t := by unfold State.requestWanted; rw [w]; rfl
    rw [none]
    exact State.actVerdict_of_not_running (by rw [h.own]; exact ho) v
  have can : s.dequeue.canEvaluate = s.canEvaluate := State.canEvaluate_congr s.dequeue_adm s.dequeue_linkState
  have own' : s.answered.adm.own ≠ .running := by rw [s.answered_step.own]; exact own
  unfold State.carryEvaluate State.outcome
  simp only [State.dequeue_adm, req, can]
  change State.actVerdict (State.requestWanted (if _ then s.answered.actOutcome _ _ else s.answered)) _ = _
  by_cases c : s.canEvaluate = true ∧ q.stay = s.adm.stay ∧ fitTest s.settings.capacity s.board ≠ .empty
  · obtain ⟨o, sent, h, ho⟩ := s.answered.actOutcome_stepped own' (fitTest s.settings.capacity s.board) q.settle
    rw [if_pos c, if_pos (by simp [c])]
    exact quiet h ho _
  · rw [if_neg c, if_neg (by simpa [and_comm] using c)]
    exact quiet (.refl _) own' _

end Sys2Proof.Machine

open Sys2Proof Sys2Proof.Machine

/-- Settles O29, by the state of the own step and the outcome. -/
theorem evaluationActedOn : Obligations.EvaluationActedOn := by
  refine ⟨fun s q rest fit head req wanted own hfit => ?_, fun s => ⟨?_, rfl, rfl, ?_, ?_⟩⟩
  · subst hfit
    have run : exec .evaluate s = done s.carryEvaluate := by show done _ = _; rw [head]
    have e := State.carryEvaluate_eq req wanted own
    have own' : s.answered.adm.own ≠ .running := by rw [s.answered_step.own]; exact own
    have before : Untouched [.updates, .adm, .seq, .ver, .tx, .log] s s.answered := s.answered_untouched.mono (by decide)
    by_cases c : s.canEvaluate = true ∧ q.stay = s.adm.stay ∧ fitTest s.settings.capacity s.board ≠ .empty
    · rw [if_pos c] at e
      obtain ⟨o, sent, h, -⟩ := s.answered.actOutcome_stepped own' (fitTest s.settings.capacity s.board) q.settle
      have placing := (Placing.refl s.answered).actOutcome (fitTest s.settings.capacity s.board) q.settle
      rw [e] at run
      refine ⟨_, run, (before.trans placing.untouched).finish, ?_, ?_, ?_, ?_⟩
      · rw [State.finish_updates]; exact (s.answered_ops head).trans placing.ops
      · rw [State.finish_adm, h.evalReq, s.answered_request.1]
      · rw [State.finish_adm, h.standing, s.answered_step.standing]
      · rw [if_pos c]
        simp only [State.finish_adm, State.finish_own, State.finish_seq, State.finish_updates]
        have claim := State.claim_spec (s := s.answered)
        have yields := State.yieldStep_spec (s := s.answered)
        rw [s.answered_ownKey, s.answered_ownPairs, s.answered_settings] at claim yields
        refine ⟨fun ho => ?_, fun ho pass => ?_, fun ho fail => ?_, fun ho pass => ?_, fun ho pass => ?_, fun ho fail => ?_⟩
        · rw [← s.answered_step.own] at ho
          simp only [State.actOutcome, ho, s.answered_tx, s.answered_seq, and_self]
        · rw [← s.answered_step.own] at ho
          simp only [State.actOutcome, ho, pass, if_true]
          refine ⟨claim.step.own, claim.step.sent, ?_, fun tag st => claim.report ?_ ?_⟩
          · have := claim.placed
            rwa [s.answered_ownKey, s.answered_ownPairs] at this
          · rw [s.answered_tagCurrent]; exact tag
          · rw [s.answered_seq]; exact st
        · rw [← s.answered_step.own] at ho
          obtain ⟨stay, seq⟩ := State.stayWaiting_spec ho
          rw [s.answered_waitStands, s.answered_tx, s.answered_ownKey, s.answered_settings, s.answered_ownPairs] at stay
          simp only [State.actOutcome, ho, if_neg fail]
          exact ⟨stay.own, seq.trans s.answered_seq, stay.sent⟩
        · rw [← s.answered_step.own] at ho
          obtain ⟨pending, lapse⟩ := State.runPending_spec (s := s.answered)
          rw [s.answered_ownKey, s.answered_settings, s.answered_ownPairs] at pending
          simp only [State.actOutcome, ho, pass, if_true]
          split
          · exact ⟨pending.own, lapse.trans s.answered_step.lapse, pending.sent⟩
          · exact ⟨ho, by rw [s.answered_tx], s.answered_seq⟩
        · rw [← s.answered_step.own] at ho
          simp only [State.actOutcome, ho, pass, if_true, s.answered_tx, s.answered_seq, and_self]
        · have yielded : s.answered.actOutcome (fitTest s.settings.capacity s.board) q.settle = s.answered.yieldStep := by
            rw [← s.answered_step.own] at ho
            rcases ho with ho | ho <;> simp only [State.actOutcome, ho, if_neg fail]
          rw [yielded]
          refine ⟨yields.step.own, yields.step.sent, ?_, fun tag st => yields.report ?_ ?_⟩
          · have := yields.placed
            rwa [s.answered_ownKey, s.answered_ownPairs] at this
          · rw [s.answered_tagCurrent]; exact tag
          · rw [s.answered_seq]; exact st
    · rw [if_neg c] at e
      rw [e] at run
      refine ⟨_, run, before.finish, ?_, ?_, ?_, ?_⟩
      · rw [State.finish_updates]; exact s.answered_ops head
      · rw [State.finish_adm, s.answered_request.1]
      · rw [State.finish_adm, s.answered_step.standing]
      · rw [if_neg c, State.finish_adm, State.finish_own, State.finish_seq, State.finish_ver, s.answered_step.own, s.answered_tx,
          s.answered_seq, s.answered_ver]
        exact ⟨rfl, rfl, rfl, rfl⟩
  · simp [State.canEvaluate]
  · unfold State.tagCurrent
    cases s.adm.standing <;> simp
  · unfold State.waitStands
    rw [Bool.and_eq_true]
    refine and_congr ?_ ?_
    · split <;> simp_all
    · split <;> simp_all

end

section
/-! Frames that a receiver cannot take (R137, R138, R142, R145, R147, R148): counts and link states, and the entry to BARRED. -/

namespace Sys2Proof.Machine

/-! ### The frame that a command carries -/

/-- The frame of another station that a command carries whole, with its kind. -/
def heardFrame : Instr → Option (Nat × RxFrame)
  | .inhibit f => some (0, f)
  | .clear f => some (1, f)
  | .release f => some (2, f)
  | .announce f => some (3, f)
  | .request k => some (4, commandRx k 0)
  | .abort k => some (4, commandRx k 1)
  | .resume k => some (4, commandRx k 2)
  | .report k => some (4, commandRx k 3)
  | .commandNotAddressed f => some (4, f)
  | .status f => some (5, f)
  | .record f => some (6, f)
  | .unknownKind k f => some (7 + k.val, f)
  | _ => none

/-- Every command that carries a frame hands it to the receiver. -/
theorem exec_of_heardFrame {c : Instr} {kind : Nat} {f : RxFrame} (h : heardFrame c = some (kind, f)) (s : State) :
    exec c s = done (s.receiveFrame kind f) := by
  cases c <;> cases h <;> rfl

/-! ### Counts and link states (R142, R143) -/

section
variable {s : State}

theorem State.judgeLink_still (h1 : s.link.tec < 192) (h2 : s.link.state = .engaged → s.link.tec < 96 ∧ s.link.recCount < 96)
    (h3 : s.link.state = .reticent → 80 ≤ s.link.tec ∨ 80 ≤ s.link.recCount) : s.judgeLink = s := by
  unfold State.judgeLink
  rw [if_neg (by omega), if_neg (fun k => by have := h2 k.1; omega), if_neg (fun k => by have := h3 k.1; omega)]
theorem State.judgeLink_reticent (h1 : s.link.tec < 192) (h2 : s.link.state = .engaged)
    (h3 : 96 ≤ s.link.tec ∨ 96 ≤ s.link.recCount) : s.judgeLink = s.enterReticent := by
  unfold State.judgeLink
  rw [if_neg (by omega), if_pos ⟨h2, h3⟩]
theorem State.judgeLink_engaged (h1 : s.link.tec < 80) (h2 : s.link.state = .reticent) (h3 : s.link.recCount < 80) :
    s.judgeLink = s.returnEngaged := by
  unfold State.judgeLink
  rw [if_neg (by omega), if_neg (fun k => by rw [h2] at k; cases k.1), if_pos ⟨h2, h1, h3⟩]

/-- REC rises by 1 below 255, and stays there (R132, R142). -/
theorem State.recUp_eq (h : s.link.recCount < 255) :
    s.recUp = (s.onLink fun l => { l with recCount := l.recCount + 1 }).judgeLink := by
  have raised : raiseCount s.link.recCount 1 = s.link.recCount + 1 := by unfold raiseCount; omega
  unfold State.recUp State.moveCounts
  rw [raised, if_neg (by omega)]
  rfl
theorem State.recUp_full (h : s.link.recCount = 255) : s.recUp = s := by
  unfold State.recUp State.moveCounts
  rw [h]
  exact if_pos ⟨rfl, rfl⟩
theorem State.recDown_eq (h : 0 < s.link.recCount) :
    s.recDown = (s.onLink fun l => { l with recCount := l.recCount - 1 }).judgeLink := by
  unfold State.recDown State.moveCounts
  rw [if_neg (by omega)]
  rfl
theorem State.recDown_zero (h : s.link.recCount = 0) : s.recDown = s := by
  unfold State.recDown State.moveCounts
  rw [h]
  exact if_pos ⟨rfl, rfl⟩

/-- Entry to RETICENT: the flag, and a claiming step yields (R48, R143). -/
theorem State.enterReticent_spec : s.enterReticent.flag .reticentEntered = true
    ∧ (s.adm.own = .claiming ∨ s.adm.own = .runPending → s.enterReticent.adm.own = .waiting)
    ∧ s.enterReticent.link = { s.link with state := .reticent, holdOffMoved := s.enterReticent.link.holdOffMoved } := by
  have placing := (Placing.refl ((s.onLink fun l => { l with state := .reticent }).sticky .reticentEntered)).admReticent
  refine ⟨placing.flags _ ?_, fun own => ?_, placing.link⟩
  · simp [State.flag, State.sticky, Log.isSet_setFlag]
  · exact (congrArg (fun u : State => u.adm.own) (if_pos own)).trans State.yieldStep_spec.step.own
end

/-! ### Receiving (R137, R138, R139) -/

section
variable {s : State}

theorem State.running_of_phase (h : s.loader.phase = .running) : s.isRunning = true := State.isRunning_iff.2 h

/-- A frame with a good check is answered, and is over for the node; where it is delivered it is taken. -/
theorem State.receiveFrame_good {kind : Nat} {f : RxFrame} (run : s.loader.phase = .running) (role : s.link.role = .receiver)
    (good : checkGood kind f = true) : s.receiveFrame kind f =
      if deliveredBy (slotsSeen f.others (s.answerTo kind f)) = true then (s.frameOver (s.answerTo kind f)).deliveredFrame kind f
      else s.frameOver (s.answerTo kind f) := by
  unfold State.receiveFrame
  rw [if_pos ⟨State.running_of_phase run, role⟩, if_pos good]

theorem State.answerTo_hold {kind : Nat} {f : RxFrame} (line : s.onLine = true) (held : s.HeldOffAt f)
    (must : s.mustApply kind f = true) : s.answerTo kind f = some .hold := by
  unfold State.answerTo
  rw [if_pos line, if_pos (by rw [(s.holdOffAtAnswer_iff f).2 held, must]; rfl)]
theorem State.answerTo_accept {kind : Nat} {f : RxFrame} (line : s.onLine = true) (free : ¬ s.HeldOffAt f) :
    s.answerTo kind f = some .accept := by
  unfold State.answerTo
  rw [if_pos line, if_neg (by rw [Bool.and_eq_true, State.holdOffAtAnswer_iff]; exact fun k => free k.1)]
theorem State.answerTo_off {kind : Nat} {f : RxFrame} (line : s.onLine = false) : s.answerTo kind f = none := by
  unfold State.answerTo; rw [line]; rfl

theorem Untouched.frameOver (s : State) (a) : Untouched [.link] s (s.frameOver a) := Untouched.onLink s _
end

/-! ### Entry to BARRED (R49, R80, R148) -/

section
variable (s : State)

/-- What a suspension makes of the round sequencer, whether or not an attempt is open (R88). -/
theorem State.suspend_seq (c : Cause) : (s.suspend c).seq = { s.seq with
    attemptOpen := false, stepTimer := .stopped, pauseTimer := .stopped, state := .suspended
    suspendCount := min (s.seq.suspendCount + 1) 255, lastCause := some c, suspendTimer := .from 0 } := by
  have halted : (s.haltAttempt c.outcome).seq =
      { s.seq with attemptOpen := false, stepTimer := .stopped, pauseTimer := .stopped } := by
    unfold State.haltAttempt
    rw [State.onSeq_seq, (s.endAttempt_spec c.outcome).2.1]
  unfold State.suspend State.enterSuspended
  rw [State.setRound_seq, State.onSeq_seq, (State.releaseIfClaims_spec _).1.seq (by decide), halted]

/-- The round sequencer with the pending requests gone (R80). -/
def State.pendingGone (s : State) : State := s.onSeq fun q => { q with pendingSet := Vector.replicate 4 none }

/-- At barring pending requests go, and an active round is suspended with LINK_LOST (R80). -/
theorem State.seqBarred_cases : s.seqBarred = s.pendingGone.suspend .linkLost ∨
    s.seqBarred = s.pendingGone ∧ s.seq.state ≠ .claiming ∧ s.seq.state ≠ .running := by
  unfold State.seqBarred
  cases e : s.seq.state with
  | idle => exact .inr ⟨rfl, by decide, by decide⟩
  | holdWait => exact .inl rfl
  | waiting => exact .inl rfl
  | claiming => exact .inl rfl
  | running => exact .inl rfl
  | suspended => exact .inr ⟨rfl, by decide, by decide⟩
  | closing => exact .inr ⟨rfl, by decide, by decide⟩
theorem State.seqBarred_seq : s.seqBarred.seq.pendingSet = Vector.replicate 4 none
    ∧ s.seqBarred.seq.state ≠ .claiming ∧ s.seqBarred.seq.state ≠ .running
    ∧ (s.seq.state = .running → s.seqBarred.seq.state = .suspended ∧ s.seqBarred.seq.lastCause = some .linkLost) := by
  rcases s.seqBarred_cases with e | ⟨e, h, k⟩ <;> rw [e]
  · rw [State.suspend_seq]
    exact ⟨rfl, nofun, nofun, fun _ => ⟨rfl, rfl⟩⟩
  · exact ⟨rfl, h, k, fun r => absurd r k⟩

/-- A stop whose cause the round sequencer discards lets the own step go and leaves the round (R45, R79). -/
theorem State.stopRun_discarded {c : StopCause} (h : s.stopReply c = .discards) :
    (s.stopRun c).seq = s.seq ∧ (s.stopRun c).adm.own = .none := by
  unfold State.stopRun
  simp only [h, State.stopReported, State.stopAnswered]
  exact ⟨by simp only [State.placeOwn, State.onTx_seq, State.onAdm_seq, State.placeOp_seq]; unfold State.stickyIf; split <;> rfl, rfl⟩

/-- The own step lets its part of the hall go (R49). -/
def State.stepLetGo (s : State) : State :=
  match s.adm.own with
  | .running => s.stopRun .linkLost
  | .none => s
  | _ => (s.placeOp (.ownRemove .cip (resourcesOf s.ownPairs))).onAdm (Admission.enter .none)

theorem State.admDetached_eq : s.admDetached =
    (allFour.foldl (fun s i => s.placeProduct i none) ((allFour.foldl State.dropHold s.stepLetGo).placeOwn none)).onAdm
      fun a => { a with learning := .stopped } := rfl

/-- A round that neither claims nor runs does not see the own step go. -/
theorem State.stepLetGo_spec (h1 : s.seq.state ≠ .claiming) (h2 : s.seq.state ≠ .running) :
    s.stepLetGo.seq = s.seq ∧ s.stepLetGo.adm.own = .none := by
  unfold State.stepLetGo
  split
  · refine s.stopRun_discarded ?_
    unfold State.stopReply
    rw [if_neg (by simp [h1, h2])]
  · rename_i e; exact ⟨rfl, e⟩
  · exact ⟨by simp, rfl⟩

/-- Every hold goes QUIET; the own step stays as it is (R54). -/
theorem State.dropHold_spec (i : Fin 4) : (s.dropHold i).seq = s.seq ∧ (s.dropHold i).adm.own = s.adm.own
    ∧ ∀ j : Fin 4, ((s.dropHold i).adm.holds[j]).holding = if j = i then false else (s.adm.holds[j]).holding := by
  unfold State.dropHold
  split
  · split <;>
      refine ⟨by simp, by simp, fun j => ?_⟩ <;>
        (by_cases e : j = i <;> simp [e])
  · rename_i h
    refine ⟨rfl, rfl, fun j => ?_⟩
    by_cases e : j = i
    · subst e; simpa using h
    · rw [if_neg e]
theorem State.dropHolds_spec (l : List (Fin 4)) (s : State) : (l.foldl State.dropHold s).seq = s.seq
    ∧ (l.foldl State.dropHold s).adm.own = s.adm.own
    ∧ ∀ j : Fin 4, ((l.foldl State.dropHold s).adm.holds[j]).holding = if j ∈ l then false else (s.adm.holds[j]).holding := by
  induction l generalizing s with
  | nil => simp
  | cons i l ih =>
    obtain ⟨h1, h2, h3⟩ := ih (s.dropHold i)
    obtain ⟨k1, k2, k3⟩ := s.dropHold_spec i
    rw [List.foldl_cons]
    refine ⟨h1.trans k1, h2.trans k2, fun j => ?_⟩
    rw [h3, k3]
    by_cases a : j ∈ l <;> by_cases b : j = i <;> simp [a, b]

/-- The product slots are emptied, and nothing else happens. -/
theorem State.emptyProducts_spec (l : List (Fin 4)) (s : State) :
    (l.foldl (fun s i => s.placeProduct i none) s).seq = s.seq ∧ (l.foldl (fun s i => s.placeProduct i none) s).adm = s.adm
    ∧ (l.foldl (fun s i => s.placeProduct i none) s).tx.own = s.tx.own
    ∧ ∀ j : Fin 4, (l.foldl (fun s i => s.placeProduct i none) s).tx.product[j] = if j ∈ l then none else s.tx.product[j] := by
  induction l generalizing s with
  | nil => simp
  | cons i l ih =>
    obtain ⟨h1, h2, h3, h4⟩ := ih (s.placeProduct i none)
    rw [List.foldl_cons]
    refine ⟨h1, h2, h3.trans ?_, fun j => ?_⟩
    · simp only [State.placeProduct, State.onTx_tx, Selector.replaced]; split <;> rfl
    · rw [h4]
      simp only [Fin.getElem_fin, placeProduct_get, List.mem_cons]
      by_cases a : j ∈ l <;> by_cases b : j = i <;> simp [a, b]

/-- At detachment and at barring the own step goes, the holds go QUIET, and the class-A slots are emptied (R49). -/
theorem State.admDetached_spec (h1 : s.seq.state ≠ .claiming) (h2 : s.seq.state ≠ .running) :
    s.admDetached.seq = s.seq ∧ s.admDetached.adm.own = .none ∧ s.admDetached.adm.learning = .stopped
      ∧ s.admDetached.tx.own = none
      ∧ ∀ i : Fin 4, s.admDetached.tx.product[i] = none ∧ (s.admDetached.adm.holds[i]).holding = false := by
  obtain ⟨a1, a2⟩ := s.stepLetGo_spec h1 h2
  obtain ⟨b1, b2, b3⟩ := State.dropHolds_spec allFour s.stepLetGo
  obtain ⟨c1, c2, c3, c4⟩ := State.emptyProducts_spec allFour ((allFour.foldl State.dropHold s.stepLetGo).placeOwn none)
  have own (u : State) : (u.placeOwn none).seq = u.seq ∧ (u.placeOwn none).adm = u.adm ∧ (u.placeOwn none).tx.own = none :=
    ⟨rfl, rfl, rfl⟩
  rw [(own _).1] at c1
  rw [(own _).2.1] at c2
  rw [(own _).2.2] at c3
  rw [State.admDetached_eq, State.onAdm_seq, State.onAdm_adm, State.onAdm_tx, c1, c2, c3]
  exact ⟨b1.trans a1, b2.trans a2, rfl, rfl, fun i => ⟨(c4 i).trans (if_pos (List.mem_finRange i)),
    (b3 i).trans (if_pos (List.mem_finRange i))⟩⟩

/-- Entry to BARRED. -/
theorem State.enterBarred_spec : s.enterBarred.link = { s.link with
      state := .barred, quiet := .stopped, role := .none, holdOffMoved := s.enterBarred.link.holdOffMoved }
    ∧ s.enterBarred.board = s.board ∧ s.enterBarred.adm.own = .none ∧ s.enterBarred.adm.learning = .stopped
    ∧ s.enterBarred.tx.own = none
    ∧ (∀ i : Fin 4, s.enterBarred.tx.product[i] = none ∧ (s.enterBarred.adm.holds[i]).holding = false)
    ∧ (∀ j : Fin 4, s.enterBarred.seq.pendingSet[j] = none)
    ∧ (s.seq.state = .running → s.enterBarred.seq.state = .suspended ∧ s.enterBarred.seq.lastCause = some .linkLost) := by
  have placing := (Placing.refl ((s.onLink fun l => { l with state := .barred, quiet := .stopped, role := .none }).onTx
    fun t => { t with holdBack := .stopped })).seqBarred.admDetached
  obtain ⟨pending, notClaiming, notRunning, cut⟩ := ((s.onLink fun l =>
    { l with state := .barred, quiet := .stopped, role := .none }).onTx fun t => { t with holdBack := .stopped }).seqBarred_seq
  obtain ⟨seq, own, learning, slot, products⟩ := State.admDetached_spec _ notClaiming notRunning
  refine ⟨placing.link, (State.fixed_eq s.fixed_enterBarred).2.2.2.1, own, learning, slot, products, fun j => ?_, fun run => ?_⟩
  · refine (congrArg (fun q : Sequencer => q.pendingSet[j]) seq).trans ?_
    simp only [pending]
    exact Vector.getElem_replicate _
  · exact ⟨(congrArg Sequencer.state seq).trans (cut run).1, (congrArg Sequencer.lastCause seq).trans (cut run).2⟩
end

end Sys2Proof.Machine

open Sys2Proof Sys2Proof.Machine

/-- Settles O43, by what the receiver answers and what becomes of the frame. -/
theorem receiverTurnsFramesAway : Obligations.ReceiverTurnsFramesAway := by
  refine ⟨fun kind f _ => ⟨?_, ?_⟩, fun c s hc run role busy => ?_, fun c kind f s hc run role busy line held good => ?_,
    fun kind c f s hc run role busy taken good noReject noHold own => ?_⟩
  · simp [checkGood, arbWord, Nat.mul_comm]
  · rfl
  · obtain ⟨a, ha, e⟩ : ∃ a, (s.onLine = true → a = if c = .frameBreakOff then none else some .reject) ∧
        (s.onLine = false → a = none) ∧ exec c s = done (s.checkFailed a) := by
      have receives : s.receiving = true := by simp [State.receiving, State.running_of_phase run, role]
      rcases hc with rfl | rfl
      · exact ⟨s.rejectAnswer, fun k => by simp [State.rejectAnswer, k], fun k => by simp [State.rejectAnswer, k],
          congrArg done (if_pos receives)⟩
      · exact ⟨none, fun _ => (if_pos rfl).symm, fun _ => rfl, congrArg done (if_pos receives)⟩
    refine ⟨fun st tec rec => ?_, fun st tec top still => ?_, fun st => ?_⟩
    · have up : s.checkFailed a = ((s.frameOver a).onLink fun l => { l with recCount := l.recCount + 1 }).judgeLink := by
        unfold State.checkFailed
        rw [st]
        exact State.recUp_eq (s := s.frameOver a) (show s.link.recCount < 255 by omega)
      have answer := ha (by simp [State.onLine, st])
      rw [e.2, up]
      by_cases low : s.link.recCount < 95
      · have same : ((s.frameOver a).onLink fun l => { l with recCount := l.recCount + 1 }).judgeLink =
            (s.frameOver a).onLink fun l => { l with recCount := l.recCount + 1 } :=
          State.judgeLink_still (show s.link.tec < 192 by omega) (fun _ => ⟨tec, show s.link.recCount + 1 < 96 by omega⟩)
            fun k => absurd (st.symm.trans k) (by decide)
        have frame : Untouched [.link] s ((s.frameOver a).onLink fun l => { l with recCount := l.recCount + 1 }) :=
          (Untouched.frameOver s a).trans (Untouched.onLink _ _)
        rw [same]
        refine ⟨_, rfl, ?_, ?_, ?_, ?_, fun _ => ⟨frame.finish, ?_⟩, fun k => by omega⟩ <;>
          rw [State.finish_link_busy _ (by exact busy)]
        · rfl
        · rfl
        · exact answer
        · rfl
        · exact st
      · have top : s.link.recCount = 95 := by omega
        have enters : ((s.frameOver a).onLink fun l => { l with recCount := l.recCount + 1 }).judgeLink =
            ((s.frameOver a).onLink fun l => { l with recCount := l.recCount + 1 }).enterReticent :=
          State.judgeLink_reticent (show s.link.tec < 192 by omega) st (.inr (show 96 ≤ s.link.recCount + 1 by omega))
        obtain ⟨flag, yields, link⟩ :=
          ((s.frameOver a).onLink fun l => { l with recCount := l.recCount + 1 }).enterReticent_spec
        have still : ((s.frameOver a).onLink fun l => { l with recCount := l.recCount + 1 }).enterReticent.link.medium = .busy := by
          rw [link]; exact busy
        rw [enters]
        refine ⟨_, rfl, ?_, ?_, ?_, ?_, fun k => absurd k low, fun _ => ⟨?_, ?_, fun own => ?_⟩⟩
        · rw [State.finish_link_busy _ still, link]; rfl
        · rw [State.finish_link_busy _ still, link]; rfl
        · rw [State.finish_link_busy _ still, link]; exact answer
        · rw [State.finish_link_busy _ still, link]; rfl
        · rw [State.finish_link_busy _ still, link]
        · unfold State.flag; rw [State.finish_log]; exact flag
        · rw [State.finish_adm]; exact yields own
    · have answer := ha (by simp [State.onLine, st])
      have up : s.checkFailed a = (s.frameOver a).onLink fun l => { l with recCount := min (s.link.recCount + 1) 255 } := by
        unfold State.checkFailed
        rw [st]
        show (s.frameOver a).recUp = _
        by_cases full : s.link.recCount = 255
        · rw [State.recUp_full (s := s.frameOver a) full]
          have : min (s.link.recCount + 1) 255 = (s.frameOver a).link.recCount := by rw [full]; exact full.symm
          rw [this]
          rfl
        · have : min (s.link.recCount + 1) 255 = s.link.recCount + 1 := by omega
          rw [State.recUp_eq (s := s.frameOver a) (show s.link.recCount < 255 by omega), this]
          exact State.judgeLink_still (s := (s.frameOver a).onLink fun l => { l with recCount := l.recCount + 1 }) tec
            (fun k => absurd (st.symm.trans k) (by decide))
            fun _ => still.imp id fun k => show 80 ≤ s.link.recCount + 1 by omega
      rw [e.2, up]
      refine ⟨_, rfl, ((Untouched.frameOver s a).trans (Untouched.onLink _ _)).finish, ?_⟩
      rw [State.finish_link_busy _ (by exact busy), ← answer]
      rfl
    · have answer : a = none := e.1 (by simp [State.onLine, st])
      have quiet : s.checkFailed a = (s.frameOver a).onLink fun l => { l with quiet := .from 0 } := by
        unfold State.checkFailed; rw [st]
      rw [e.2, quiet]
      refine ⟨_, rfl, ((Untouched.frameOver s a).trans (Untouched.onLink _ _)).finish, ?_⟩
      rw [State.finish_link_busy _ (by exact busy), answer]
      rfl
  · have carried : heardFrame c = some (kind, f) ∧ s.mustApply kind f = true := by
      rcases hc with ⟨rfl, rfl⟩ | ⟨rfl, rfl⟩ | ⟨rfl, rfl⟩ | ⟨rfl, rfl⟩ | ⟨rfl, addressed, k, h⟩
      · exact ⟨rfl, rfl⟩
      · exact ⟨rfl, rfl⟩
      · exact ⟨rfl, rfl⟩
      · exact ⟨rfl, rfl⟩
      · refine ⟨?_, by simp [State.mustApply, addressed]⟩
        rcases h with ⟨rfl, rfl⟩ | ⟨rfl, rfl⟩ | ⟨rfl, rfl⟩ | ⟨rfl, rfl⟩ <;> rfl
    have answer := State.answerTo_hold line held carried.2
    have left : s.receiveFrame kind f = s.frameOver (some .hold) := by
      rw [State.receiveFrame_good run role good, answer]
      exact if_neg (by simp [deliveredBy, slotsSeen])
    refine ⟨_, (exec_of_heardFrame carried.1 s).trans (congrArg done left), (Untouched.frameOver s _).finish, ?_⟩
    rw [State.finish_link_busy _ (by exact busy)]
    rfl
  · have carried : heardFrame c = some (kind, f) := by
      rcases hc with ⟨rfl, rfl⟩ | ⟨rfl, rfl⟩ | ⟨rfl, rfl⟩ | ⟨rfl, rfl⟩ | ⟨rfl, rfl⟩ | ⟨rfl, rfl⟩ | ⟨rfl, rfl | ⟨k, h⟩⟩
      all_goals first | rfl | skip
      rcases h with ⟨rfl, rfl⟩ | ⟨rfl, rfl⟩ | ⟨rfl, rfl⟩ | ⟨rfl, rfl⟩ <;> rfl
    have delivered : deliveredBy (slotsSeen f.others (s.answerTo kind f)) = true := by
      rcases taken with ⟨line, free⟩ | ⟨st, others⟩
      · rw [State.answerTo_accept line free]
        simp [deliveredBy, slotsSeen, noReject, noHold]
      · rw [State.answerTo_off (by simp [State.onLine, st])]
        simp [deliveredBy, slotsSeen, noReject, noHold, others]
    have bars : s.receiveFrame kind f = (s.frameOver (s.answerTo kind f)).enterBarred := by
      rw [State.receiveFrame_good run role good, if_pos delivered]
      exact if_pos own
    obtain ⟨link, board, step, learning, slot, products, pending, cut⟩ := (s.frameOver (s.answerTo kind f)).enterBarred_spec
    have still : (s.frameOver (s.answerTo kind f)).enterBarred.link.medium = .busy := by rw [link]; exact busy
    refine ⟨_, (exec_of_heardFrame carried s).trans (congrArg done bars), ?_⟩
    rw [State.finish_link_busy _ still, State.finish_tx_busy _ still, State.finish_board, State.finish_adm, State.finish_seq]
    exact ⟨by rw [link], by rw [link], by rw [link], by rw [link]; rfl, by rw [link]; rfl, board, step, learning, slot, products,
      pending, fun run _ => cut run⟩

end

section
/-! What a node that hears a good frame hands on (R138, R142, R143, R149 to R154), ENGAGED and RETICENT. -/

namespace Sys2Proof.Machine

/-! ### Handing on -/

/-- The count that reaches 12 sets HOLDOFF_ASSERTED (R9). -/
theorem State.enqueue_log_eq (s : State) (op : Op) : (s.enqueue op).log =
    if 11 ≤ s.updates.ops.length ∧ s.updates.holdOff = false then s.log.setFlag .holdoffAsserted else s.log := by
  have len : (s.onUpdates fun u => { u with ops := u.ops ++ [op] }).updates.ops.length = s.updates.ops.length + 1 := by simp
  unfold State.enqueue
  dsimp only
  rw [len, Config.holdOffOn]
  by_cases h : 11 ≤ s.updates.ops.length ∧ s.updates.holdOff = false
  · rw [if_pos h, if_pos ⟨by omega, h.2⟩]; rfl
  · rw [if_neg h, if_neg (fun k => h ⟨by omega, k.2⟩)]; rfl

/-- An operation that a frame becomes joins the tail of the queue; a frame that becomes none leaves everything. -/
structure Enqueued (s t : State) (op : Option Op) : Prop where
  frame : Untouched [.updates, .log] s t
  ops : t.updates.ops = s.updates.ops ++ op.toList
  log : SameLog s.log t.log
  adm : t.adm = s.adm
  link : t.link = { s.link with holdOffMoved := t.link.holdOffMoved }
  holdOff : t.updates.holdOff = (s.updates.holdOff || op.isSome && decide (11 ≤ s.updates.ops.length))
  noted : t.link.holdOffMoved = (s.link.holdOffMoved || t.updates.holdOff && !s.updates.holdOff)
  flagged : t.log = if t.updates.holdOff && !s.updates.holdOff then s.log.setFlag .holdoffAsserted else s.log

theorem State.enqueueIf_spec (s : State) (op : Option Op) : Enqueued s (s.enqueueIf op) op := by
  cases op with
  | none =>
    show Enqueued s s none
    refine ⟨.refl _ s, (List.append_nil _).symm, .inl rfl, rfl, rfl, ?_, ?_, ?_⟩ <;> cases s.updates.holdOff <;> simp
  | some o =>
    show Enqueued s (s.enqueue o) (some o)
    obtain ⟨e1, e2⟩ := s.enqueue_holdOff o
    refine ⟨Untouched.enqueue s o, s.enqueue_ops o, s.enqueue_log o, s.enqueue_adm o, by rw [e2], e1, ?_, ?_⟩
    · rw [e1, e2]
      cases s.updates.holdOff <;> simp
    · rw [e1, State.enqueue_log_eq]
      cases s.updates.holdOff <;> simp

/-- The operation that a frame of a kind becomes (R150 to R152, R154). -/
def operationOf (kind : Nat) (f : RxFrame) : Option Op :=
  match kind with
  | 0 => (readInhibitSet f).map .inhibit
  | 1 => (readInhibitSet f).map .clear
  | 2 => readRelease f
  | 3 => (readAnnounce f).map .announce
  | _ => none

/-- Frames of every kind but COMMAND become an operation or nothing. -/
theorem State.handOn_eq (s : State) {kind : Nat} (h : kind ≠ 4) (f : RxFrame) : s.handOn kind f = s.enqueueIf (operationOf kind f) := by
  match kind, h with
  | 0, _ | 1, _ | 2, _ | 3, _ => rfl
  | 4, h => exact absurd rfl h
  | _ + 5, _ => rfl

/-- A COMMAND that addresses another node, of an unknown code, or cut short, is handed to nobody (R153). -/
theorem State.handOn_ignored (s : State) {f : RxFrame} (h : commandAddressed s.settings.node s.settings.groups f = false ∨
    f.payload.length < 4 ∨ 3 < byteAt 0 f.payload 1) : s.handOn 4 f = s := by
  have none : readCommand s.settings.node s.settings.groups f = none := by
    unfold readCommand
    dsimp only
    split
    · rename_i k
      rcases h with h | h | h
      · rw [h] at k; cases k.2
      · omega
      · split <;> first | rfl | omega
    · rfl
  unfold State.handOn
  simp only [none]

/-! ### A frame heard -/

/-- Return to ENGAGED: a waiting step has an evaluation requested where that is possible (R48). -/
structure Back (s t : State) : Prop where
  frame : Untouched [.updates, .adm, .link, .log] s t
  ops : s.updates.ops <+: t.updates.ops
  log : SameLog s.log t.log
  link : t.link = { s.link with state := .engaged, holdOffMoved := t.link.holdOffMoved }
  own : t.adm.own = s.adm.own
  asks : s.adm.own = .waiting → s.adm.state = .active → t.adm.evalReq.isSome = true

theorem State.returnEngaged_spec (s : State) : Back s s.returnEngaged := by
  have placing := (Placing.refl (s.onLink fun l => { l with state := .engaged })).admEngaged
  have moved := Untouched.onLink s fun l => { l with state := .engaged }
  have link := placing.link
  unfold State.returnEngaged State.admEngaged at *
  by_cases w : s.adm.own = .waiting
  · rw [State.onLink_adm, if_pos w] at *
    refine ⟨(moved.mono (by decide)).trans ((Untouched.requestEval _ _).mono (by decide)), placing.ops, State.requestEval_log _ _,
      link, (State.requestEval_step _ _).own, fun _ active => State.requestEval_isSome ?_ ?_ _⟩
    · simp [State.canEvaluate, active]
    · rw [State.onLink_adm, w]; rfl
  · rw [State.onLink_adm, if_neg w] at *
    exact ⟨moved.mono (by decide), List.prefix_rfl, .inl rfl, link, rfl, fun k => absurd k w⟩

section
variable {s : State}

/-- A delivered frame of another station, the link state standing: REC falls, and the frame is handed on. -/
theorem State.deliveredFrame_still {kind : Nat} {f : RxFrame} (line : s.onLine = true) (other : senderNumber kind f ≠ some s.settings.node)
    (tec : s.link.tec < 192) (h1 : s.link.state = .engaged → s.link.tec < 96 ∧ s.link.recCount ≤ 96)
    (h2 : s.link.state = .reticent → 80 ≤ s.link.tec ∨ s.link.recCount = 0 ∨ 80 < s.link.recCount) :
    (s.frameOver (some .accept)).deliveredFrame kind f = (s.onLink Link.heard).handOn kind f := by
  have lowered : (s.frameOver (some .accept)).recDown = s.onLink Link.heard := by
    by_cases zero : s.link.recCount = 0
    · rw [State.recDown_zero (s := s.frameOver (some .accept)) zero]
      have : s.link.recCount = s.link.recCount - 1 := by omega
      unfold State.frameOver State.onLink Link.heard
      rw [← this]
    · rw [State.recDown_eq (s := s.frameOver (some .accept)) (show 0 < s.link.recCount by omega)]
      refine State.judgeLink_still (s := s.onLink Link.heard) tec (fun k => ?_) (fun k => ?_)
      · obtain ⟨a, b⟩ := h1 k
        exact ⟨a, show s.link.recCount - 1 < 96 by omega⟩
      · rcases h2 k with a | a | a
        · exact .inl a
        · exact absurd a zero
        · exact .inr (show 80 ≤ s.link.recCount - 1 by omega)
  unfold State.deliveredFrame
  rw [if_neg (show ¬ senderNumber kind f = some (s.frameOver (some .accept)).settings.node from other),
    if_pos (show (s.frameOver (some .accept)).onLine = true from line)]
  dsimp only
  rw [lowered]
  exact if_pos line

/-- The same where REC falling brings a RETICENT node back to ENGAGED (R48, R143). -/
theorem State.deliveredFrame_back {kind : Nat} {f : RxFrame} (st : s.link.state = .reticent)
    (other : senderNumber kind f ≠ some s.settings.node) (tec : s.link.tec < 80) (pos : 0 < s.link.recCount)
    (low : s.link.recCount ≤ 80) :
    (s.frameOver (some .accept)).deliveredFrame kind f = (s.onLink Link.heard).returnEngaged.handOn kind f := by
  have lowered : (s.frameOver (some .accept)).recDown = (s.onLink Link.heard).returnEngaged := by
    rw [State.recDown_eq (s := s.frameOver (some .accept)) pos]
    exact State.judgeLink_engaged (s := s.onLink Link.heard) tec st (show s.link.recCount - 1 < 80 by omega)
  have engaged : (s.onLink Link.heard).returnEngaged.onLine = true := by
    have placing := (Placing.refl ((s.onLink Link.heard).onLink fun l => { l with state := .engaged })).admEngaged
    have : (s.onLink Link.heard).returnEngaged.link.state = .engaged := (congrArg Link.state placing.link).trans rfl
    simp [State.onLine, this]
  unfold State.deliveredFrame
  rw [if_neg (show ¬ senderNumber kind f = some (s.frameOver (some .accept)).settings.node from other),
    if_pos (show (s.frameOver (some .accept)).onLine = true by simp [State.onLine, State.frameOver, st])]
  dsimp only
  rw [lowered]
  exact if_pos engaged

/-- A frame answered ACCEPT that no other station turns away is delivered. -/
theorem State.receiveFrame_accepted {kind : Nat} {f : RxFrame} (run : s.loader.phase = .running) (role : s.link.role = .receiver)
    (good : checkGood kind f = true) (answer : s.answerTo kind f = some .accept)
    (slots : f.others.reject = false ∧ f.others.hold = false) :
    s.receiveFrame kind f = (s.frameOver (some .accept)).deliveredFrame kind f := by
  rw [State.receiveFrame_good run role good, answer]
  exact if_pos (by simp [deliveredBy, slotsSeen, slots.1, slots.2])

/-- What a frame that need not be applied brings, in hold-off too (R138, R154). -/
theorem State.receive_needless {kind : Nat} {f : RxFrame} {b : Bool}
    (h : ({ s with updates := { s.updates with holdOff := b } } : State).Hears kind f) (needless : s.mustApply kind f = false) :
    s.receiveFrame kind f = (s.onLink Link.heard).handOn kind f := by
  have line : s.onLine = true := h.onLine
  have answer : s.answerTo kind f = some .accept := by
    unfold State.answerTo
    rw [if_pos line, needless, Bool.and_false]
    rfl
  have tec : s.link.tec < 192 := by rcases h.state with ⟨-, k, -⟩ | ⟨-, k, -⟩ <;> (dsimp only at k; omega)
  rw [State.receiveFrame_accepted (s := s) h.running h.role h.check answer h.slots]
  refine State.deliveredFrame_still line h.sender tec (fun k => ?_) (fun k => ?_)
  · rcases h.state with ⟨-, a, c⟩ | ⟨a, -⟩
    · exact ⟨a, c⟩
    · exact absurd (k.symm.trans a) (by decide)
  · rcases h.state with ⟨a, -⟩ | ⟨-, -, c⟩
    · exact absurd (k.symm.trans a) (by decide)
    · exact c

/-- What a frame brings to a RETICENT node: it stays so, or returns to ENGAGED. -/
theorem State.HearsReticent.received {kind : Nat} {f : RxFrame} (h : s.HearsReticent kind f) :
    s.receiveFrame kind f =
      if 0 < s.link.recCount ∧ s.link.recCount ≤ 80 ∧ s.link.tec < 80 then (s.onLink Link.heard).returnEngaged.handOn kind f
      else (s.onLink Link.heard).handOn kind f := by
  have line : s.onLine = true := by simp [State.onLine, h.reticent]
  rw [State.receiveFrame_accepted (s := s) h.hears.running h.hears.role h.hears.check (State.answerTo_accept line h.hears.accepts) h.hears.slots]
  split
  · rename_i c
    exact State.deliveredFrame_back h.reticent h.hears.sender c.2.2 c.1 c.2.1
  · rename_i c
    exact State.deliveredFrame_still line h.hears.sender h.tec (fun k => absurd (h.reticent.symm.trans k) (by decide)) fun _ => by omega

/-- With room before hold-off an operation joins the queue and does nothing else (R9). -/
theorem State.enqueue_short (short : s.updates.ops.length < 11) (op : Op) :
    s.enqueue op = s.onUpdates fun u => { u with ops := u.ops ++ [op] } := by
  unfold State.enqueue
  refine if_neg fun k => ?_
  have : 12 ≤ (s.updates.ops ++ [op]).length := k.1
  rw [List.length_append, List.length_singleton] at this
  omega
theorem State.placeOp_onLink (short : s.updates.ops.length < 11) (f : Link → Link) (op : Op) :
    (s.onLink f).placeOp op = (s.placeOp op).onLink f := by
  unfold State.placeOp
  rw [State.onLink_adm]
  split
  · rw [State.enqueue_short (by exact short), State.enqueue_short (by exact short)]
    rfl
  · rfl
theorem State.placeOp_short (short : s.updates.ops.length < 11) (op : Op) :
    (s.placeOp op).link = s.link ∧ (s.placeOp op).updates.holdOff = s.updates.holdOff := by
  unfold State.placeOp
  split
  · rw [State.enqueue_short (by exact short)]
    exact ⟨rfl, rfl⟩
  · exact ⟨rfl, rfl⟩

/-- With such room an evaluation request and a change of the link controller that leaves the link state commute. -/
theorem State.requestEval_onLink (short : s.updates.ops.length < 11) (f : Link → Link) (hf : (f s.link).state = s.link.state)
    (b : Bool) : (s.onLink f).requestEval b = (s.requestEval b).onLink f := by
  have can : (s.onLink f).canEvaluate = s.canEvaluate := State.canEvaluate_congr rfl hf
  unfold State.requestEval
  rw [can, State.onLink_adm]
  by_cases c : (s.canEvaluate && s.adm.own.evaluated) = true
  · rw [if_pos c, if_pos c]
    cases s.adm.evalReq with
    | none => exact State.placeOp_onLink (s := s.onAdm fun a => { a with evalReq := some ⟨a.stay, b⟩ }) short f .evaluate
    | some _ => rfl
  · rw [if_neg c, if_neg c]
/-- Nor does the request then change the link controller or hold-off. -/
theorem State.requestEval_short (short : s.updates.ops.length < 11) (b : Bool) :
    (s.requestEval b).link = s.link ∧ (s.requestEval b).updates.holdOff = s.updates.holdOff := by
  rcases s.requestEval_cases b with ⟨-, e⟩ | ⟨-, -, e⟩ | ⟨-, -, e⟩ <;> rw [e]
  · exact ⟨rfl, rfl⟩
  · exact State.placeOp_short (s := s.onAdm fun a => { a with evalReq := some ⟨a.stay, b⟩ }) short .evaluate
  · exact ⟨rfl, rfl⟩

/-- Whether a node hears a frame rests on its phase, its settings, its link and hold-off. -/
theorem State.Hears.congr {t : State} {kind : Nat} {f : RxFrame} (h : s.Hears kind f) (h1 : t.loader = s.loader)
    (h2 : t.settings = s.settings) (h3 : t.link = s.link) (h4 : t.updates.holdOff = s.updates.holdOff) : t.Hears kind f := by
  obtain ⟨a, b, c, d, e, g, i, j⟩ := h
  unfold State.HeldOffAt at e
  refine ⟨?_, ?_, ?_, ?_, ?_, g, i, ?_⟩
  · rw [h1]; exact a
  · rw [h3]; exact b
  · rw [h3]; exact c
  · rw [h3]; exact d
  · unfold State.HeldOffAt; rw [h3, h4]; exact e
  · rw [h2]; exact j
end

/-! ### Reading payloads (R150 to R153) -/

theorem announcedState_eq (n : Nat) : announcedState n =
    if n ≤ 3 then some (if n = 0 then .waiting else if n = 1 then .claiming else if n = 2 then .running else .held) else none := by
  match n with
  | 0 | 1 | 2 | 3 => rfl
  | k + 4 => exact (if_neg (by omega)).symm

theorem readAnnounce_eq (f : RxFrame) (b : Nat → Nat) (h : b = byteAt 0 f.payload) :
    readAnnounce f = if 3 ≤ f.payload.length ∧ b 0 ≤ 3 ∧ b 2 ≤ 3 ∧ 3 + 2 * b 2 ≤ f.payload.length then
        some { owner := f.low.toNat % 64, key := f.low.toNat, life := b 1
               state := if b 0 = 0 then .waiting else if b 0 = 1 then .claiming else if b 0 = 2 then .running else .held
               pairs := (List.range (b 2)).map fun k => ⟨b (3 + 2 * k), b (4 + 2 * k)⟩ }
      else none := by
  subst h
  unfold readAnnounce
  simp only [announcedState_eq]
  by_cases c : byteAt 0 f.payload 0 ≤ 3
  · simp only [c, if_true, Option.map_some, true_and]
  · simp only [c, if_false, Option.map_none, false_and, and_false, ite_self]

theorem readRelease_eq (f : RxFrame) (b : Nat → Nat) (h : b = byteAt 0 f.payload) :
    readRelease f = if 3 ≤ f.payload.length ∧ b 0 ≤ 1 then
        some (.release f.low.toNat (if b 0 = 0 then .cip else .product) (BitVec.ofNat 16 (b 1 * 256 + b 2)))
      else none := by
  subst h
  unfold readRelease
  dsimp only
  by_cases c : 3 ≤ f.payload.length
  · rw [if_pos c]
    split
    · rename_i e; rw [if_pos ⟨c, by omega⟩, if_pos e]; rfl
    · rename_i e; rw [if_pos ⟨c, by omega⟩, if_neg (by omega)]; rfl
    · rename_i notCip notProduct
      have h0 : byteAt 0 f.payload 0 ≠ 0 := notCip
      have h1 : byteAt 0 f.payload 0 ≠ 1 := notProduct
      rw [if_neg (by omega)]
  · rw [if_neg c, if_neg (fun k => c k.1)]

theorem targetAddresses_iff (node : Nat) (groups : Byte) (target : Nat) : targetAddresses node groups target = true ↔
    1 ≤ target ∧ target ≤ 63 ∧ target = node ∨ 64 ≤ target ∧ target ≤ 71 ∧ groups.getLsbD (target - 64) = true := by
  unfold targetAddresses
  by_cases h0 : target = 0
  · rw [if_pos h0]; constructor
    · exact nofun
    · omega
  rw [if_neg h0]
  by_cases h1 : target ≤ 63
  · rw [if_pos h1, beq_iff_eq]
    exact ⟨fun e => .inl ⟨by omega, h1, e⟩, by rintro (⟨-, -, e⟩ | ⟨k, -⟩) <;> [exact e; omega]⟩
  rw [if_neg h1]
  by_cases h2 : target ≤ 71
  · rw [if_pos h2]
    exact ⟨fun e => .inr ⟨by omega, h2, e⟩, by rintro (⟨-, k, -⟩ | ⟨-, -, e⟩) <;> [omega; exact e]⟩
  · rw [if_neg h2]
    constructor
    · exact nofun
    · omega

end Sys2Proof.Machine

open Sys2Proof Sys2Proof.Machine

/-- Settles O41: every kind but COMMAND becomes an operation or nothing, on the link as it stands after the frame. -/
theorem heardFramesHandedOn : Obligations.HeardFramesHandedOn := by
  refine ⟨fun c kind f op s hc h => ?_, fun c kind f s hc => ?_, fun c kind f op s hc h => ?_, fun c f s u hc h pos low tec hu => ?_,
    fun f b hb => ⟨readAnnounce_eq f b hb, readRelease_eq f b hb, ?_, fun node groups => ⟨?_, targetAddresses_iff node groups⟩⟩⟩
  · have carried : heardFrame c = some (kind, f) ∧ kind ≠ 4 ∧ op = operationOf kind f := by
      rcases hc with ⟨rfl, rfl, rfl⟩ | ⟨rfl, rfl, rfl⟩ | ⟨rfl, rfl, rfl⟩ | ⟨rfl, rfl, rfl⟩ <;> exact ⟨rfl, by decide, rfl⟩
    obtain ⟨frame, command, rfl⟩ := carried
    have e : exec c s = done ((s.onLink Link.heard).enqueueIf (operationOf kind f)) := by
      rw [exec_of_heardFrame frame, State.receive_heard h, State.handOn_eq _ command]
    have k := (s.onLink Link.heard).enqueueIf_spec (operationOf kind f)
    have busy : ((s.onLink Link.heard).enqueueIf (operationOf kind f)).link.medium = .busy := by rw [k.link]; exact h.medium
    refine ⟨_, e, (((Untouched.onLink s _).mono (by decide)).trans (k.frame.mono (by decide))).finish, ?_⟩
    rw [State.finish_link_busy _ busy, State.finish_updates, State.finish_log]
    refine ⟨?_, k.ops, k.holdOff, k.flagged⟩
    rw [k.link, k.noted]
    rfl
  · have carried : heardFrame c = some (kind, f) ∧ s.receiveFrame kind f = s.onLink Link.heard ∧ s.link.medium = .busy := by
      have other {b : Bool} (large : 4 < kind)
          (h : ({ s with updates := { s.updates with holdOff := b } } : State).Hears kind f) :
          s.receiveFrame kind f = s.onLink Link.heard := by
        rw [State.receive_needless h (by unfold State.mustApply; simp; omega), State.handOn_eq _ (by omega)]
        unfold operationOf
        split <;> first | omega | rfl
      have notMine {b : Bool} (mine : commandAddressed s.settings.node s.settings.groups f = false)
          (h : ({ s with updates := { s.updates with holdOff := b } } : State).Hears 4 f) :
          s.receiveFrame 4 f = s.onLink Link.heard := by
        rw [State.receive_needless h (by simp [State.mustApply, mine])]
        exact State.handOn_ignored _ (.inl mine)
      rcases hc with ⟨hk, b, h⟩ | ⟨rfl, rfl, bad, h⟩
      · have medium : s.link.medium = .busy := h.medium
        rcases hk with ⟨rfl, rfl⟩ | ⟨rfl, rfl⟩ | ⟨k, rfl, rfl⟩ | ⟨rfl, mine, hk⟩
        · exact ⟨rfl, other (by decide) h, medium⟩
        · exact ⟨rfl, other (by decide) h, medium⟩
        · exact ⟨rfl, other (by omega) h, medium⟩
        · refine ⟨?_, notMine mine h, medium⟩
          rcases hk with rfl | ⟨k, ⟨rfl, rfl⟩ | ⟨rfl, rfl⟩ | ⟨rfl, rfl⟩ | ⟨rfl, rfl⟩⟩ <;> rfl
      · refine ⟨rfl, ?_, h.medium⟩
        rw [State.receive_heard h]
        exact State.handOn_ignored _ (.inr bad)
    obtain ⟨frame, e, medium⟩ := carried
    refine ⟨_, (exec_of_heardFrame frame s).trans (congrArg done e), (Untouched.onLink s _).finish, ?_⟩
    rw [State.finish_link_busy _ (by exact medium)]
    rfl
  · have carried : heardFrame c = some (kind, f) ∧ kind ≠ 4 ∧ op = operationOf kind f := by
      rcases hc with ⟨rfl, rfl, rfl⟩ | ⟨rfl, rfl, rfl⟩ | ⟨rfl, rfl, rfl⟩ | ⟨rfl, rfl, rfl⟩ | ⟨⟨rfl, rfl⟩ | ⟨rfl, rfl⟩ | ⟨k, rfl, rfl⟩, rfl⟩
      · exact ⟨rfl, by decide, rfl⟩
      · exact ⟨rfl, by decide, rfl⟩
      · exact ⟨rfl, by decide, rfl⟩
      · exact ⟨rfl, by decide, rfl⟩
      · exact ⟨rfl, by decide, rfl⟩
      · exact ⟨rfl, by decide, rfl⟩
      · refine ⟨rfl, by omega, ?_⟩
        unfold operationOf
        split <;> first | omega | rfl
    obtain ⟨frame, command, rfl⟩ := carried
    have run := (exec_of_heardFrame frame s).trans (congrArg done h.received)
    by_cases c : 0 < s.link.recCount ∧ s.link.recCount ≤ 80 ∧ s.link.tec < 80
    · rw [if_pos c, State.handOn_eq _ command] at run
      have k := (s.onLink Link.heard).returnEngaged.enqueueIf_spec (operationOf kind f)
      have back := (s.onLink Link.heard).returnEngaged_spec
      have link : ((s.onLink Link.heard).returnEngaged.enqueueIf (operationOf kind f)).link = { s.link.heard with
          state := .engaged
          holdOffMoved := ((s.onLink Link.heard).returnEngaged.enqueueIf (operationOf kind f)).link.holdOffMoved } := by
        rw [k.link, back.link]; rfl
      have busy : ((s.onLink Link.heard).returnEngaged.enqueueIf (operationOf kind f)).link.medium = .busy := by
        rw [link]; exact h.hears.medium
      refine ⟨_, run, ?_⟩
      rw [if_pos c, State.finish_link_busy _ busy, State.finish_updates, State.finish_log, State.finish_adm, link, k.ops, k.adm]
      refine ⟨rfl, rfl, rfl, rfl, fun o ho => by rw [ho]; simp, rfl, ?_, back.log.trans k.log, ?_, back.own, back.asks⟩
      · exact (((Untouched.onLink s _).mono (by decide)).trans ((back.frame.mono (by decide)).trans (k.frame.mono (by decide)))).finish
      · exact back.ops.trans (List.prefix_append _ _)
    · rw [if_neg c, State.handOn_eq _ command] at run
      have k := (s.onLink Link.heard).enqueueIf_spec (operationOf kind f)
      have busy : ((s.onLink Link.heard).enqueueIf (operationOf kind f)).link.medium = .busy := by
        rw [k.link]; exact h.hears.medium
      refine ⟨_, run, ?_⟩
      rw [if_neg c, State.finish_link_busy _ busy, State.finish_updates, State.finish_log, k.link, k.ops]
      exact ⟨rfl, rfl, rfl, rfl, fun o ho => by rw [ho]; simp, h.reticent,
        (((Untouched.onLink s _).mono (by decide)).trans (k.frame.mono (by decide))).finish, k.log, rfl⟩
  · have frame : heardFrame c = some (4, f) := by
      obtain ⟨k, ⟨rfl, rfl⟩ | ⟨rfl, rfl⟩ | ⟨rfl, rfl⟩ | ⟨rfl, rfl⟩⟩ := hc <;> rfl
    have heard : u.Hears 4 f := by
      subst hu
      exact ⟨h.hears.running, h.hears.role, h.hears.medium, .inl ⟨rfl, show s.link.tec < 96 by omega, show s.link.recCount ≤ 96 by omega⟩,
        h.hears.accepts, h.hears.check, h.hears.slots, h.hears.sender⟩
    have back : s.receiveFrame 4 f = (u.onLink Link.heard).admEngaged.handOn 4 f := by
      rw [h.received, if_pos ⟨pos, low, tec⟩, hu]
      rfl
    have same : u.adm = s.adm ∧ u.updates = s.updates := by subst hu; exact ⟨rfl, rfl⟩
    refine ⟨heard, fun own => ?_, fun own short => ?_⟩
    · rw [exec_of_heardFrame frame, exec_of_heardFrame frame, back, State.receive_heard heard]
      unfold State.admEngaged
      rw [if_neg (by rw [State.onLink_adm, same.1]; exact own)]
    · have short' : u.updates.ops.length < 11 := by rw [same.2]; exact short
      have k := State.requestEval_short short' false
      have fixed := State.fixed_eq (u.fixed_requestEval false)
      rw [exec_of_heardFrame frame, exec_of_heardFrame frame, back,
        State.receive_heard (heard.congr fixed.1 fixed.2.1 k.1 k.2), ← State.requestEval_onLink short' Link.heard rfl]
      unfold State.admEngaged
      rw [if_pos (by rw [State.onLink_adm, same.1]; exact own)]
  · subst hb; rfl
  · subst hb; simp [commandAddressed]

end

section
/-! Blocks that begin afresh (R50, R51, R146, R162, R181): start-up and rejoin, with the own operations that the holds and the standing
request place in an empty queue. -/

namespace Sys2Proof.Machine

/-! ### Own operations alone in the queue (R33) -/

/-- The own operations placed and waiting, in their order. -/
def State.queued (s : State) : List Op := s.updates.ops ++ s.adm.waiting

/-- Nothing of the hall waits: what is in the queue is what is outstanding, and none waits behind with room. -/
structure State.OwnOnly (s : State) : Prop where
  outstanding : s.adm.outstanding = s.updates.ops.length
  most : s.updates.ops.length ≤ 2
  full : s.adm.waiting ≠ [] → s.updates.ops.length = 2
  holdOff : s.updates.holdOff = false

theorem State.OwnOnly.length {s : State} (h : s.OwnOnly) : s.updates.ops.length = min 2 s.queued.length := by
  unfold State.queued
  rw [List.length_append]
  have := h.most
  cases e : s.adm.waiting with
  | nil => rw [List.length_nil]; omega
  | cons op rest =>
    have := h.full (by rw [e]; simp)
    omega

/-- What placing own operations in such a queue leaves. -/
structure PlacedAlone (s t : State) (ops : List Op) : Prop where
  few : t.OwnOnly
  queued : t.queued = s.queued ++ ops
  link : t.link = s.link
  log : t.log = s.log
  seq : t.seq = s.seq
  ver : t.ver = s.ver
  fixed : t.fixed = s.fixed
  tx : t.tx = { s.tx with product := t.tx.product, marks := t.tx.marks }
  marks : s.tx.copyFrom = none → t.tx.marks = s.tx.marks
  adm : t.adm = { s.adm with holds := t.adm.holds, outstanding := t.adm.outstanding, waiting := t.adm.waiting }

theorem PlacedAlone.refl {s : State} (h : s.OwnOnly) : PlacedAlone s s [] :=
  ⟨h, (List.append_nil _).symm, rfl, rfl, rfl, rfl, rfl, rfl, fun _ => rfl, rfl⟩
theorem PlacedAlone.trans {s t u : State} {xs ys : List Op} (h : PlacedAlone s t xs) (k : PlacedAlone t u ys) :
    PlacedAlone s u (xs ++ ys) where
  few := k.few
  queued := by rw [k.queued, h.queued, List.append_assoc]
  link := k.link.trans h.link
  log := k.log.trans h.log
  seq := k.seq.trans h.seq
  ver := k.ver.trans h.ver
  fixed := k.fixed.trans h.fixed
  tx := by rw [k.tx, h.tx]
  marks e := (k.marks (by rw [h.tx]; exact e)).trans (h.marks e)
  adm := by rw [k.adm, h.adm]

/-- One own operation. -/
theorem State.OwnOnly.placeOp {s : State} (h : s.OwnOnly) (op : Op) : PlacedAlone s (s.placeOp op) [op] := by
  have short : s.updates.ops.length < 11 := by have := h.most; omega
  have ha := s.placeOp_adm op
  have ho := s.placeOp_ops op
  obtain ⟨hl, hh⟩ := State.placeOp_short short op
  have log : (s.placeOp op).log = s.log := by
    unfold State.placeOp
    split <;> [rw [State.enqueue_short (by exact short)]; skip] <;> rfl
  have room : s.adm.outstanding < 2 → s.adm.waiting = [] := fun k => by
    by_contra w
    have := h.full w
    have := h.outstanding
    omega
  refine ⟨⟨?_, ?_, ?_, hh.trans h.holdOff⟩, ?_, hl, log, s.placeOp_seq op, s.placeOp_ver op, s.fixed_placeOp op, ?_, ?_, ?_⟩
  · rw [ha, ho]; have := h.outstanding; split <;> simp [*]
  · rw [ho]
    have := h.outstanding
    have := h.most
    split
    · rw [List.length_append, List.length_singleton]; omega
    · exact h.most
  · rw [ha, ho]
    have := h.outstanding
    have := h.most
    split
    · rename_i k; intro w; exact absurd (room k) w
    · intro _; omega
  · unfold State.queued
    rw [ha, ho]
    split
    · rename_i k; simp [room k]
    · simp
  · rw [State.placeOp_tx]
  · intro _; rw [State.placeOp_tx]
  · rw [ha]; split <;> rfl

/-- A product slot takes its content, and its mark where a copy of it is on the medium (R156). -/
theorem State.placeProduct_tx (s : State) (i : Fin 4) (c) :
    (s.placeProduct i c).tx =
      { s.tx with product := (s.placeProduct i c).tx.product, marks := (s.placeProduct i c).tx.marks }
    ∧ (s.tx.copyFrom = none → (s.placeProduct i c).tx.marks = s.tx.marks) := by
  simp only [State.placeProduct, State.onTx_tx, Selector.replaced]
  split
  · rename_i e; exact ⟨rfl, fun k => absurd (k.symm.trans e) (by simp)⟩
  · exact ⟨rfl, fun _ => rfl⟩

/-- The insert that a hold places where it begins (R53). -/
def State.holdOp (s : State) (i : Fin 4) : Option Op :=
  (s.holdRes i).bind fun r => if s.holdWanted r then some (.ownInsert .product [⟨r, 255⟩] s.settings.node .held) else none

theorem State.holdOp_congr {s t : State} (h1 : t.settings = s.settings) (h2 : t.port.prod = s.port.prod) (i : Fin 4) :
    t.holdOp i = s.holdOp i := by
  unfold State.holdOp
  rw [holdRes_congr h1, h1]
  simp only [holdWanted_congr h1 h2]

/-- A hold that is QUIET begins where its lines want it, on the line. -/
theorem State.OwnOnly.judgeHold {s : State} (h : s.OwnOnly) (line : s.onLine = true) (i : Fin 4)
    (quiet : (s.adm.holds[i]).holding = false) : PlacedAlone s (s.judgeHold i) (s.holdOp i).toList := by
  unfold State.judgeHold State.holdOp
  cases s.holdRes i with
  | none => exact .refl h
  | some r =>
    dsimp only [Option.bind_some]
    rw [if_pos line, quiet]
    cases s.holdWanted r with
    | false => exact .refl h
    | true =>
      have k := h.placeOp (.ownInsert .product [⟨r, 255⟩] s.settings.node .held)
      show PlacedAlone s (s.beginHold i r) _
      refine ⟨⟨k.few.outstanding, k.few.most, k.few.full, k.few.holdOff⟩, k.queued, k.link, k.log, k.seq, k.ver, k.fixed, ?_, ?_, ?_⟩
      · exact (State.placeProduct_tx _ i _).1.trans (by rw [State.onAdm_tx, State.placeOp_tx]; rfl)
      · intro e
        refine ((State.placeProduct_tx _ i _).2 ?_).trans ?_
        · rw [State.onAdm_tx, State.placeOp_tx]; exact e
        · rw [State.onAdm_tx, State.placeOp_tx]
      · have unit : (s.beginHold i r).adm = { (s.placeOp (.ownInsert .product [⟨r, 255⟩] s.settings.node .held)).adm with
            holds := (s.beginHold i r).adm.holds } := rfl
        rw [unit, k.adm]

/-- Holds that are all QUIET begin in ascending line. -/
theorem State.OwnOnly.judgeHolds {s : State} (h : s.OwnOnly) (line : s.onLine = true)
    (quiet : ∀ i : Fin 4, (s.adm.holds[i]).holding = false) : PlacedAlone s s.judgeHolds (allFour.filterMap s.holdOp) := by
  have key : ∀ (l : List (Fin 4)) (u : State), l.Nodup → u.OwnOnly → u.onLine = true → (∀ i ∈ l, (u.adm.holds[i]).holding = false) →
      PlacedAlone u (l.foldl State.judgeHold u) (l.filterMap u.holdOp) := by
    intro l
    induction l with
    | nil => intro u _ few _ _; exact .refl few
    | cons i l ih =>
      intro u nd few line quiet
      obtain ⟨fresh, nd⟩ := List.nodup_cons.1 nd
      have one := few.judgeHold line i (quiet i List.mem_cons_self)
      obtain ⟨-, settings, -, -, port, -⟩ := State.fixed_eq one.fixed
      have rest := ih (u.judgeHold i) nd one.few (by rw [onLine_congr (s := u) (by rw [one.link])]; exact line) fun j hj => by
        rw [State.judgeHold_holds]
        have : j ≠ i := fun e => fresh (e ▸ hj)
        cases u.holdRes i with
        | none => exact quiet j (List.mem_cons_of_mem _ hj)
        | some r =>
          dsimp only
          rw [if_neg (fun k => this k.1)]
          exact quiet j (List.mem_cons_of_mem _ hj)
      have same : l.filterMap (u.judgeHold i).holdOp = l.filterMap u.holdOp :=
        List.filterMap_congr fun j _ => State.holdOp_congr settings (by rw [port]) j
      rw [same] at rest
      have both := one.trans rest
      rw [List.foldl_cons]
      cases e : u.holdOp i with
      | none => rw [List.filterMap_cons_none e]; rw [e] at both; exact both
      | some o => rw [List.filterMap_cons_some e]; rw [e] at both; exact both
  exact key allFour s (List.nodup_finRange 4) h line fun i _ => quiet i

/-- A hold that was QUIET, with its slot empty, as its lines want it (R52). -/
theorem State.judgedHold_of_none {s : State} {i : Fin 4} (h : s.holdRes i = none) :
    s.judgedHold i = (s.adm.holds[i], s.tx.product[i]) := by unfold State.judgedHold; rw [h]
theorem State.judgedHold_of_some {s : State} {i : Fin 4} {r : Res} (h : s.holdRes i = some r) (line : s.onLine = true)
    (quiet : s.adm.holds[i] = ⟨false, .stopped⟩) (empty : s.tx.product[i] = none) : s.judgedHold i =
      (⟨s.holdWanted r, .stopped⟩, if s.holdWanted r then some (.announce s.settings.leaseLife r) else none) := by
  unfold State.judgedHold
  rw [h, quiet, empty]
  cases w : s.holdWanted r <;> simp [line, w]

/-! ### Start-up (R181) -/

theorem State.started_ownOnly (s : State) (d : Loaded) : (s.started d).OwnOnly := ⟨rfl, Nat.zero_le _, fun k => absurd rfl k, rfl⟩
theorem State.started_onLine (s : State) (d : Loaded) : (s.started d).onLine = true := rfl
theorem State.started_quiet (s : State) (d : Loaded) (i : Fin 4) :
    (s.started d).adm.holds[i] = ⟨false, .stopped⟩ ∧ (s.started d).tx.product[i] = none :=
  ⟨Vector.getElem_replicate _, Vector.getElem_replicate _⟩

/-- The flags of validation, and no other (R173, R179). -/
theorem startedLog_isSet (d : Loaded) (f : Sticky) : (startedLog d).isSet f = true ↔
    f = .clamped ∧ d.clamped = true ∨ f = .recipeUnusable ∧ d.unusable = true ∨ f = .chainIgnored ∧ d.chainIgnored = true := by
  have clear : Log.start.isSet f = false := by simp [Log.isSet, Log.start]
  have same (l : Log) (r p) : ({ l with renewal := r, period := p } : Log).isSet f = l.isSet f := rfl
  unfold startedLog
  dsimp only
  rw [same]
  cases d.clamped <;> cases d.unusable <;> cases d.chainIgnored <;> simp [Log.isSet_setFlag, clear, @eq_comm _ f, or_assoc]

theorem startedLog_records (d : Loaded) : (startedLog d).queue = [] ∧ (startedLog d).comp = none ∧ (startedLog d).nextFragment = 0
    ∧ (startedLog d).dropped = 0 ∧ (startedLog d).carried = 0 := by
  unfold startedLog
  cases d.clamped <;> cases d.unusable <;> cases d.chainIgnored <;> exact ⟨rfl, rfl, rfl, rfl, rfl⟩

/-- The inputs at start-up: each but RESET takes its level (R125). -/
theorem Port.started_line (p : Port) (ms : Nat) (x : Input) :
    (p.started ms).line x = if x = .reset then p.reset else (p.line x).settled := by
  cases x <;> simp [Port.started, Port.line]

/-! ### Rejoin (R146) -/

theorem State.reportWaiting_still {s : State} (h : s.seq.state ≠ .claiming) (k : s.seq.state = .running → s.tagCurrent = false) :
    s.reportWaiting = s := by
  unfold State.reportWaiting
  split
  · rename_i tag
    split
    · exact absurd ‹_› h
    · rename_i run; rw [k run] at tag; cases tag
    · rfl
  · rfl

/-- What taking the standing request adds to the queue (R35). -/
def State.requestOp (s : State) : Option Op := s.adm.standing.map fun st => .ownInsert .cip st.pairs s.ownKey .waiting

/-- The standing request is taken while the unit learns: its insert is placed, and the step waits (R35). -/
theorem State.takeRequest_learning {s : State} (own : s.adm.own = .none) (line : s.onLine = true)
    (learning : s.adm.state = .learning) (h : s.seq.state ≠ .claiming) (k : s.seq.state = .running → s.tagCurrent = false) :
    s.takeRequest = match s.requestOp with
      | none => s
      | some op => (s.placeOp op).onAdm (Admission.enter .waiting) := by
  unfold State.takeRequest State.requestOp
  cases e : s.adm.standing with
  | none => rfl
  | some st =>
    dsimp only [Option.map_some]
    rw [if_pos ⟨own, line⟩, State.reportWaiting_still]
    · rcases State.requestEval_cases ((s.placeOp (.ownInsert .cip st.pairs s.ownKey .waiting)).onAdm (Admission.enter .waiting))
        false with ⟨-, q⟩ | ⟨⟨can, -⟩, -⟩ | ⟨⟨can, -⟩, -⟩
      · exact q
      all_goals
        have active : (s.placeOp (.ownInsert .cip st.pairs s.ownKey .waiting)).adm.state = .active := (of_decide_eq_true can).1
        rw [State.placeOp_state, learning] at active
        cases active
    · rw [State.onAdm_seq, State.placeOp_seq]; exact h
    · rw [State.onAdm_seq, State.placeOp_seq]
      refine fun run => (State.tagCurrent_congr (s := s) ?_ ?_).trans (k run)
      · exact s.placeOp_standing _
      · rw [State.onAdm_seq, State.placeOp_seq]

/-- The holds and the request place own operations. -/
theorem State.holdOp_own {s : State} {i : Fin 4} {op : Op} (h : s.holdOp i = some op) : op.isOwn = true := by
  obtain ⟨r, -, e⟩ := Option.bind_eq_some_iff.1 h
  split at e <;> cases e
  rfl
theorem State.requestOp_own {s : State} {op : Op} (h : s.requestOp = some op) : op.isOwn = true := by
  obtain ⟨st, -, rfl⟩ := Option.map_eq_some_iff.1 h
  rfl

/-- The node as rejoin leaves it before the request is taken. -/
theorem State.rejoined_ownOnly (s : State) : s.rejoined.OwnOnly := ⟨rfl, Nat.zero_le _, fun k => absurd rfl k, rfl⟩

/-- The node with its standing request taken again, before the holds are judged (R50). -/
structure Resumed (s u : State) : Prop where
  few : u.OwnOnly
  queued : u.queued = s.rejoined.requestOp.toList
  ops : ∀ op, s.rejoined.requestOp = some op → op ∈ u.updates.ops
  others : u.link = s.rejoined.link ∧ u.log = s.log ∧ u.seq = s.seq ∧ u.ver = s.ver ∧ u.tx = s.rejoined.tx
  fixed : u.fixed = s.rejoined.fixed
  own : u.adm.own = if s.adm.standing.isSome then .waiting else .none
  fresh : u.adm.state = .learning ∧ u.adm.learning = .from 0 ∧ u.adm.last = none ∧ u.adm.evalReq = none
  kept : u.adm.urgency = s.adm.urgency ∧ u.adm.aging = s.adm.aging ∧ u.adm.standing = s.adm.standing
    ∧ u.adm.framePlaced = s.adm.framePlaced
  holds : ∀ i : Fin 4, u.adm.holds[i] = ⟨false, .stopped⟩

theorem State.rejoined_resumed {s : State} (h : s.seq.state ≠ .claiming) (k : s.seq.state = .running → s.tagCurrent = false) :
    Resumed s s.rejoined.takeRequest := by
  have taken := State.takeRequest_learning (s := s.rejoined) rfl rfl rfl h k
  have quiet (i : Fin 4) : s.rejoined.adm.holds[i] = ⟨false, .stopped⟩ := Vector.getElem_replicate _
  have standing : s.rejoined.adm.standing = s.adm.standing := rfl
  cases e : s.rejoined.requestOp with
  | none =>
    rw [e] at taken
    have gone : s.adm.standing = none := Option.map_eq_none_iff.1 e
    rw [taken]
    exact ⟨s.rejoined_ownOnly, by rw [e]; rfl, fun op ho => absurd (e.symm.trans ho) (by simp), ⟨rfl, rfl, rfl, rfl, rfl⟩, rfl, by rw [gone]; rfl,
      ⟨rfl, rfl, rfl, rfl⟩, ⟨rfl, rfl, rfl, rfl⟩, quiet⟩
  | some op =>
    rw [e] at taken
    obtain ⟨st, there, -⟩ := Option.map_eq_some_iff.1 e
    have some : s.adm.standing = some st := there
    have p := s.rejoined_ownOnly.placeOp op
    have ops : (s.rejoined.placeOp op).updates.ops = [op] := rfl
    rw [taken]
    refine ⟨⟨p.few.outstanding, p.few.most, p.few.full, p.few.holdOff⟩, ?_, fun o ho => ?_,
      ⟨p.link, p.log, p.seq, p.ver, State.placeOp_tx _ _⟩, p.fixed, by rw [some]; rfl,
      ⟨(congrArg Admission.state p.adm :), (congrArg Admission.learning p.adm :), (congrArg Admission.last p.adm :),
        (congrArg Admission.evalReq p.adm :)⟩,
      ⟨(congrArg Admission.urgency p.adm :), (congrArg Admission.aging p.adm :), (congrArg Admission.standing p.adm :),
        (congrArg Admission.framePlaced p.adm :)⟩, fun i => ?_⟩
    · rw [e]; exact p.queued
    · rw [e] at ho
      cases ho
      exact (congrArg (op ∈ ·) ops).mpr (List.mem_singleton_self op)
    · exact (congrArg (fun v : Vector Hold 4 => v[i]) (State.placeOp_holds s.rejoined op)).trans (quiet i)

end Sys2Proof.Machine

open Sys2Proof Sys2Proof.Machine

/-- Settles O23: the blocks stand in their start-up values, and what the holds place is the queue. -/
theorem startUpReleasesTheBlocks : Obligations.StartUpReleasesTheBlocks := by
  intro s d hp hd
  have run : exec .startUpComplete s = done (s.started d).judgeHolds := by rw [hd]; exact congrArg done (if_pos hp)
  have quiet := s.started_quiet d
  have p := (s.started_ownOnly d).judgeHolds (s.started_onLine d) fun i => by rw [(quiet i).1]
  obtain ⟨loader, settings, store, board, port, pending⟩ := State.fixed_eq p.fixed
  have busy : (s.started d).judgeHolds.link.medium = .busy := by rw [p.link]; rfl
  refine ⟨_, run, ?_⟩
  have portT := State.finish_port (s.started d).judgeHolds
  have settingsT : (s.started d).judgeHolds.finish.settings = (s.started d).settings := by rw [State.finish_settings, settings]
  have prodT : (s.started d).judgeHolds.finish.port.prod = (s.started d).port.prod := by rw [portT, port]
  have line (x : Input) : (s.started d).judgeHolds.finish.port.line x = ((s.port.started d.settings.sampleMs).line x) := by
    rw [State.finish_line, port]; rfl
  have judged (i : Fin 4) := (State.judgeHolds_spec (s.started d)).1 i
  have one (i : Fin 4) (r : Res) (h : (s.started d).holdRes i = some r) :=
    Prod.mk.inj ((judged i).trans (State.judgedHold_of_some h (s.started_onLine d) (quiet i).1 (quiet i).2))
  have off (i : Fin 4) (h : (s.started d).holdRes i = none) := Prod.mk.inj ((judged i).trans (State.judgedHold_of_none h))
  have wanted (r : Res) := holdWanted_congr settingsT prodT r
  simp only [holdRes_congr settingsT, wanted, State.finish_link_busy _ busy, State.finish_tx_busy _ busy, State.finish_loader,
    State.finish_settings, State.finish_store, State.finish_board, State.finish_pending, State.finish_updates, State.finish_adm,
    State.finish_seq, State.finish_ver, State.finish_log, loader, settings, store, board, pending, p.link, p.log, p.seq, p.ver]
  have log := p.log
  have fresh := startedLog_records d
  have portW : (s.started d).judgeHolds.finish.port = { (s.started d).port with
      outputs := (s.started d).judgeHolds.finish.port.outputs, indicators := (s.started d).judgeHolds.finish.port.indicators } := by
    rw [portT, port]
  obtain ⟨few, queued, -, -, -, -, -, tx, marks, adm⟩ := p
  have slots {β : Type} (f : Selector → β) (hf : ∀ a p m, f { a with product := p, marks := m } = f a) :
      f (s.started d).judgeHolds.tx = f .start := by rw [tx]; exact hf _ _ _
  refine ⟨rfl, rfl, rfl, rfl, rfl, rfl, rfl, rfl, congrArg Admission.state adm, congrArg Admission.learning adm,
    congrArg Admission.own adm, congrArg Admission.standing adm, fun i r h => ⟨?_, ?_⟩, fun i => ⟨?_, fun h => ⟨?_, ?_⟩⟩,
    few.holdOff, few.outstanding, few.length, List.Perm.of_eq queued,
    congrArg Admission.urgency adm, congrArg Admission.aging adm, congrArg Admission.last adm,
    congrArg Admission.framePlaced adm, congrArg Admission.granting adm, congrArg Admission.evalReq adm,
    congrArg Admission.wanted adm, congrArg Admission.wantedSettle adm, congrArg Admission.settle adm,
    congrArg Admission.lapse adm, congrArg Admission.refresh adm, congrArg Admission.guard adm,
    slots Selector.own fun _ _ _ => rfl, slots Selector.status fun _ _ _ => rfl, slots Selector.statusSuspend fun _ _ _ => rfl,
    slots Selector.copyFrom fun _ _ _ => rfl, slots Selector.turn fun _ _ _ => rfl, slots Selector.turnCount fun _ _ _ => rfl,
    slots Selector.holdBack fun _ _ _ => rfl, fun x => ?_, fun x => ⟨?_, fun hx => ⟨?_, ?_⟩⟩, congrArg Port.exchange portW,
    congrArg Port.samplePeriod portW, congrArg Port.requestNumber portW, congrArg Port.replyTimer portW, congrArg Port.absent portW,
    congrArg Port.silent portW, fun f => ?_, ?_, ?_, ?_, ?_, ?_, ?_, ?_⟩
  · exact congrArg Hold.holding (one i r h).1
  · exact (one i r h).2
  · cases h : (s.started d).holdRes i with
    | none => exact congrArg Hold.refresh ((off i h).1.trans (quiet i).1)
    | some r => exact congrArg Hold.refresh (one i r h).1
  · exact congrArg Hold.holding ((off i h).1.trans (quiet i).1)
  · exact (off i h).2.trans (quiet i).2
  · rw [marks rfl]
    cases x <;> simp [State.started, State.reset, Selector.start, Marks.clear, Marks.get]
  · rw [line, Port.started_line]
    split <;> [(rename_i e; rw [e]; rfl); rfl]
  · rw [line, Port.started_line, if_neg hx]; rfl
  · rw [line, Port.started_line, if_neg hx]; rfl
  · unfold State.flag
    rw [State.finish_log, log]
    exact startedLog_isSet d f
  · rfl
  · exact fresh.1
  · exact fresh.2.1
  · rfl
  · exact fresh.2.2.1
  · exact fresh.2.2.2.1
  · exact fresh.2.2.2.2

/-- Settles O46: the queue is empty, so what is placed is the standing request's insert and those of the holds. -/
theorem rejoinBeginsAfresh : Obligations.RejoinBeginsAfresh := by
  refine ⟨fun s early => ⟨_, congrArg done (if_neg fun k => ?_), (Untouched.refl [] s).finish⟩, fun s on late st h k => ?_⟩
  · have := (Timer.due_iff.1 k.1).2
    have : 5000 ≤ s.link.quiet.ms := this
    omega
  have run : exec .rejoin s = done s.rejoined.takeRequest.judgeHolds :=
    congrArg done (if_pos ⟨Timer.due_iff.2 ⟨on, late⟩, st⟩)
  have u := State.rejoined_resumed h k
  obtain ⟨link, log, seq, ver, tx⟩ := u.others
  have line : s.rejoined.takeRequest.onLine = true := by rw [State.onLine, link]; rfl
  have p := u.few.judgeHolds line fun i => by rw [u.holds i]
  have linkT : s.rejoined.takeRequest.judgeHolds.link = s.rejoined.link := p.link.trans link
  have busy : s.rejoined.takeRequest.judgeHolds.link.medium = .busy := by rw [linkT]; rfl
  have fixedT : s.rejoined.takeRequest.judgeHolds.fixed = s.rejoined.fixed := p.fixed.trans u.fixed
  obtain ⟨loader, settings, store, board, port, pending⟩ := State.fixed_eq fixedT
  have settingsT : s.rejoined.takeRequest.judgeHolds.finish.settings = s.rejoined.takeRequest.settings := by
    rw [State.finish_settings, settings, (State.fixed_eq u.fixed).2.1]
  have prodT : s.rejoined.takeRequest.judgeHolds.finish.port.prod = s.rejoined.takeRequest.port.prod := by
    rw [State.finish_port, port, (State.fixed_eq u.fixed).2.2.2.2.1]
  have frame : Untouched [.board, .updates, .adm, .link, .tx, .log] s s.rejoined.takeRequest.judgeHolds := by
    have seqT : s.rejoined.takeRequest.judgeHolds.seq = s.seq := p.seq.trans seq
    have verT : s.rejoined.takeRequest.judgeHolds.ver = s.ver := p.ver.trans ver
    refine ⟨fun _ => loader, fun _ => settings, fun _ => store, ?_, ?_, ?_, fun _ => seqT, fun _ => verT,
      fun _ => by rw [port]; exact SamePort.refl _, ?_, ?_, ?_, pending⟩ <;> exact fun n => absurd (by simp) n
  have queued : s.rejoined.takeRequest.judgeHolds.queued =
      s.rejoined.requestOp.toList ++ allFour.filterMap s.rejoined.takeRequest.holdOp := by rw [p.queued, u.queued]
  have placed : s.rejoined.takeRequest.updates.ops <+: s.rejoined.takeRequest.judgeHolds.updates.ops :=
    (Placing.refl s.rejoined.takeRequest).judgeHolds.ops
  have settingsU : s.rejoined.takeRequest.settings = s.settings := (State.fixed_eq u.fixed).2.1
  have one (i : Fin 4) (r : Res) (hr : s.rejoined.takeRequest.holdRes i = some r) := Prod.mk.inj
    (((State.judgeHolds_spec s.rejoined.takeRequest).1 i).trans (State.judgedHold_of_some hr line (u.holds i)
      (by rw [tx]; exact Vector.getElem_replicate _)))
  obtain ⟨few, -, -, logT, -, -, -, txT, -, adm⟩ := p
  refine ⟨_, run, frame.finish, ?_⟩
  simp only [holdRes_congr settingsT, holdWanted_congr settingsT prodT, State.finish_link_busy _ busy, State.finish_tx_busy _ busy,
    State.finish_board, State.finish_updates, State.finish_adm, State.finish_log, linkT, board]
  refine ⟨.inl (logT.trans log), rfl, rfl, rfl, rfl, rfl, rfl, rfl, few.holdOff, fun op ho => ?_, few.most,
    (congrArg Admission.evalReq adm).trans u.fresh.2.2.2, (congrArg Admission.last adm).trans u.fresh.2.2.1,
    (congrArg Admission.framePlaced adm).trans u.kept.2.2.2, fun st hst => ?_, fun gone quiet => ?_,
    (congrArg Admission.state adm).trans u.fresh.1, (congrArg Admission.learning adm).trans u.fresh.2.1,
    (congrArg Admission.urgency adm).trans u.kept.1, (congrArg Admission.aging adm).trans u.kept.2.1,
    (congrArg Admission.standing adm).trans u.kept.2.2.1, (congrArg Admission.own adm).trans u.own, ?_, ?_, ?_, ?_, ?_,
    fun i r hr => ⟨?_, ?_, fun wanted => ?_⟩⟩
  · have mem : op ∈ s.rejoined.takeRequest.judgeHolds.queued := List.mem_append_left _ ho
    rw [queued, List.mem_append, Option.mem_toList, List.mem_filterMap] at mem
    rcases mem with mem | ⟨i, -, mem⟩
    · exact State.requestOp_own mem
    · exact State.holdOp_own mem
  · have key : s.rejoined.takeRequest.judgeHolds.finish.ownKey = s.rejoined.ownKey := by
      unfold State.ownKey
      rw [State.finish_adm, State.finish_settings, settings, (congrArg Admission.urgency adm).trans u.kept.1]
      rfl
    rw [key]
    exact placed.subset (u.ops _ (Option.map_eq_some_iff.2 ⟨st, hst, rfl⟩))
  · have noRequest : s.rejoined.requestOp = none := Option.map_eq_none_iff.2 gone
    have noHold : allFour.filterMap s.rejoined.takeRequest.holdOp = [] := by
      rw [List.filterMap_eq_nil_iff]
      intro i _
      unfold State.holdOp
      cases e : s.rejoined.takeRequest.holdRes i with
      | none => rfl
      | some r =>
        have : s.rejoined.takeRequest.holdWanted r = false := (congrArg Hold.holding (one i r e).1).symm.trans (quiet i)
        simp [this]
    rw [noRequest, noHold] at queued
    exact (List.append_eq_nil_iff.1 queued).1
  · rw [txT, tx]; rfl
  · rw [txT, tx]; rfl
  · rw [txT, tx]; rfl
  · rw [txT, tx]; rfl
  · rw [txT, tx]; rfl
  · exact congrArg Hold.holding (one i r hr).1
  · rw [(one i r hr).2, settingsU]
  · show _ ∈ s.rejoined.takeRequest.judgeHolds.queued
    rw [queued, List.mem_append, List.mem_filterMap]
    refine .inr ⟨i, List.mem_finRange i, ?_⟩
    unfold State.holdOp
    rw [hr, Option.bind_some, if_pos wanted, settingsU]

end

section
/-! Entries that an operation puts on the lists of its pairs (R4, R11, R12, R17): one list, one pair, and all pairs of an operation, each
resource named once. -/

namespace Sys2Proof.Machine

/-! ### One list -/

/-- A list with one entry put on it, in the place of the one that meets the condition where there was one: no other entry moves. -/
structure Puts (sel : Entry → Bool) (l l' : List Entry) (new : Entry) : Prop where
  others : l'.filter (fun e => !sel e) = l.filter fun e => !sel e
  found : l'.find? sel = some new

section
variable {sel : Entry → Bool} {l : List Entry}

theorem Puts.insert {new : Entry} (none : l.find? sel = none) (hn : sel new = true) : Puts sel l (insertEntry new l) new := by
  refine ⟨filter_insertEntry (by simp [hn]) l, find?_insertEntry hn fun x hx => ?_⟩
  have := List.find?_eq_none.1 none x hx
  simpa using this

theorem filter_map_replaced {old new : Entry} (ho : sel old = true) (hn : sel new = true) (l : List Entry) :
    (l.map fun x => if x = old then new else x).filter (fun e => !sel e) = l.filter fun e => !sel e := by
  induction l with
  | nil => rfl
  | cons x xs ih =>
    rw [List.map_cons, List.filter_cons, List.filter_cons, ih]
    by_cases e : x = old <;> simp [e, ho, hn]
theorem find?_map_replaced {old new : Entry} (hn : sel new = true) (only : ∀ x ∈ l, sel x = true → x = old) (hm : old ∈ l) :
    (l.map fun x => if x = old then new else x).find? sel = some new := by
  induction l with
  | nil => cases hm
  | cons x xs ih =>
    rw [List.map_cons]
    by_cases e : x = old
    · rw [if_pos e, List.find?_cons_of_pos hn]
    · have away : ¬ sel x = true := fun k => e (only x List.mem_cons_self k)
      rw [if_neg e, List.find?_cons_of_neg away]
      exact ih (fun y hy => only y (List.mem_cons_of_mem _ hy)) ((List.mem_cons.1 hm).resolve_left fun k => e k.symm)

/-- The entry that meets the condition takes new content. -/
theorem Puts.replace {old new : Entry} (some : l.find? sel = some old) (only : ∀ x ∈ l, sel x = true → x = old)
    (hn : sel new = true) : Puts sel l (replaceEntry old new l) new := by
  have hm := List.mem_of_find?_eq_some some
  have ho : sel old = true := List.find?_some some
  unfold replaceEntry
  split
  · exact ⟨filter_map_replaced ho hn l, find?_map_replaced hn only hm⟩
  · refine ⟨?_, find?_insertEntry hn fun x hx => ?_⟩
    · rw [filter_insertEntry (by simp [hn]), List.filter_filter]
      refine List.filter_congr fun x _ => ?_
      by_cases e : x = old <;> simp [e, ho]
    · rw [List.mem_filter, decide_eq_true_eq] at hx
      exact (Bool.not_eq_true _).mp fun k => hx.2 (only x hx.1 k)

/-- Where the entries that do not meet the condition stay, one of another condition is found as before. -/
theorem find?_of_others {l' : List Entry} (h : l'.filter (fun e => !sel e) = l.filter fun e => !sel e) {other : Entry → Bool}
    (apart : ∀ e, other e = true → sel e = false) : l'.find? other = l.find? other := by
  have through (l : List Entry) : l.find? other = (l.filter fun e => !sel e).find? other := by
    rw [List.find?_filter]
    refine congrArg (l.find? ·) (funext fun e => ?_)
    cases k : other e with
    | false => simp
    | true => simp [apart e k]
  rw [through, h, ← through]
end

/-! ### One pair, and all pairs -/

/-- What an operation's work holds at one resource: its list, and whether it changed or failed there. -/
structure SameAt (r : Res) (w w' : BoardWork) : Prop where
  lists : w'.board.lists[r] = w.board.lists[r]
  changed : r ∈ w'.changed ↔ r ∈ w.changed
  failed : r ∈ w'.failed ↔ r ∈ w.failed

theorem SameAt.refl (r : Res) (w : BoardWork) : SameAt r w w := ⟨rfl, .rfl, .rfl⟩
theorem SameAt.trans {r : Res} {u v w : BoardWork} (h : SameAt r u v) (k : SameAt r v w) : SameAt r u w :=
  ⟨k.lists.trans h.lists, k.changed.trans h.changed, k.failed.trans h.failed⟩

/-- A pair works on its own resource, and takes at most one free entry. -/
structure PairLocal (r : Res) (w w' : BoardWork) : Prop where
  others : ∀ q : Res, q ≠ r → SameAt q w w'
  least : w.board.free.length ≤ w'.board.free.length + 1
  most : w'.board.free.length ≤ w.board.free.length

section
variable {f : BoardWork → Pair → BoardWork} (each : ∀ w p, PairLocal p.res w (f w p))
include each

/-- A resource that no pair names keeps what it has. -/
theorem foldl_pairs_off {pairs : List Pair} {r : Res} (h : ∀ p ∈ pairs, p.res ≠ r) (w : BoardWork) : SameAt r w (pairs.foldl f w) := by
  induction pairs generalizing w with
  | nil => exact .refl r w
  | cons p ps ih =>
    rw [List.foldl_cons]
    exact ((each w p).others r fun e => h p List.mem_cons_self e.symm).trans (ih (fun q hq => h q (List.mem_cons_of_mem _ hq)) _)

/-- A resource that one pair names has what that pair gave it, from what it had at first. -/
theorem foldl_pairs_at {pairs : List Pair} (nd : (pairs.map (·.res)).Nodup) (w : BoardWork) {p : Pair} (hp : p ∈ pairs) :
    ∃ u, SameAt p.res w u ∧ SameAt p.res (f u p) (pairs.foldl f w)
      ∧ w.board.free.length + 1 ≤ u.board.free.length + pairs.length ∧ u.board.free.length ≤ w.board.free.length := by
  induction pairs generalizing w with
  | nil => cases hp
  | cons q qs ih =>
    obtain ⟨fresh, nd⟩ := List.nodup_cons.1 nd
    rw [List.foldl_cons]
    rcases List.mem_cons.1 hp with rfl | hp
    · refine ⟨w, .refl _ w, foldl_pairs_off each (fun x hx e => fresh (List.mem_map.2 ⟨x, hx, e⟩)) _, ?_, le_rfl⟩
      rw [List.length_cons]; omega
    · obtain ⟨u, h1, h2, h3, h4⟩ := ih nd (f w q) hp
      have first := each w q
      refine ⟨u, (first.others p.res fun e => fresh (List.mem_map.2 ⟨p, hp, e⟩)).trans h1, h2, ?_, h4.trans first.most⟩
      have := first.least
      rw [List.length_cons]; omega
end

/-! ### The pairs of the three operations -/

theorem Board.takeFree_other {b : Board} {r q : Res} (h : q ≠ r) (make) : (b.takeFree r make).lists[q] = b.lists[q] := by
  cases e : b.free with
  | nil => unfold Board.takeFree; rw [e]
  | cons n rest => rw [b.takeFree_lists r q e, if_neg h]
theorem Board.takeFree_length (b : Board) (r : Res) (make) :
    b.free.length ≤ (b.takeFree r make).free.length + 1 ∧ (b.takeFree r make).free.length ≤ b.free.length := by
  rw [Board.takeFree_free, List.length_tail]; omega

/-- A resource joins a list of resources: the others are on it as before. -/
theorem mem_snoc_other {l : List Res} {r q : Res} (h : q ≠ r) : q ∈ l ++ [r] ↔ q ∈ l := by simp [h]

theorem mem_changed_other {l : List Res} {r q : Res} (h : q ≠ r) {c : Prop} [Decidable c] : q ∈ (if c then l else l ++ [r]) ↔ q ∈ l := by
  split
  · exact .rfl
  · exact mem_snoc_other h

theorem applyPair_local (a : Announcement) (w : BoardWork) (p : Pair) : PairLocal p.res w (applyPair a w p) := by
  unfold applyPair
  dsimp only
  split
  · refine ⟨fun q hq => ⟨by rw [Board.replace_lists, if_neg hq], mem_changed_other hq, .rfl⟩, Nat.le_succ _, le_rfl⟩
  · split
    · obtain ⟨h1, h2⟩ := w.board.takeFree_length p.res fun n =>
        ({ num := n, owner := a.owner, role := a.role, demand := if a.role = .cip then some p.demand else none, key := a.key,
           state := a.state, life := some a.lifeSet, own := false } : Entry)
      exact ⟨fun q hq => ⟨Board.takeFree_other hq _, mem_snoc_other hq, .rfl⟩, h1, h2⟩
    · exact ⟨fun q hq => ⟨rfl, .rfl, mem_snoc_other hq⟩, Nat.le_succ _, le_rfl⟩
theorem ownInsertPair_local (capacity node role key st) (w : BoardWork) (p : Pair) :
    PairLocal p.res w (ownInsertPair capacity node role key st w p) := by
  unfold ownInsertPair
  dsimp only
  split
  · exact ⟨fun q _ => .refl q w, Nat.le_succ _, le_rfl⟩
  split
  · refine ⟨fun q hq => ⟨by rw [Board.replace_lists, if_neg hq], mem_changed_other hq, .rfl⟩, Nat.le_succ _, le_rfl⟩
  · obtain ⟨h1, h2⟩ := w.board.takeFree_length p.res fun n =>
      ({ num := n, owner := node, role := role, demand := if role = .cip then some p.demand else none, key := key, state := st,
         life := none, own := true } : Entry)
    exact ⟨fun q hq => ⟨Board.takeFree_other hq _, mem_snoc_other hq, .rfl⟩, h1, h2⟩
theorem ownUpdatePair_local (role key st) (w : BoardWork) (p : Pair) : PairLocal p.res w (ownUpdatePair role key st w p) := by
  unfold ownUpdatePair
  split
  · refine ⟨fun q hq => ⟨by dsimp only; rw [Board.replace_lists, if_neg hq], mem_changed_other hq, .rfl⟩, Nat.le_succ _, le_rfl⟩
  · exact ⟨fun q _ => .refl q w, Nat.le_succ _, le_rfl⟩

/-- An entry is put on the pair's resource; the work counts it as changed where R21 does. -/
structure PairPuts (sel : Entry → Bool) (r : Res) (w w' : BoardWork) (new : Entry) : Prop where
  puts : Puts sel w.board.lists[r] w'.board.lists[r] new
  changed : r ∈ w'.changed ↔ r ∈ w.changed ∨ new.changedFrom (w.board.lists[r].find? sel)
  failed : w'.failed = w.failed

theorem Entry.changedFrom_none (e : Entry) : e.changedFrom none := nofun
theorem Entry.changedFrom_some {e x : Entry} :
    e.changedFrom (some x) ↔ ¬(x.state = e.state ∧ x.demand = e.demand ∧ x.key = e.key) :=
  ⟨fun h => h x rfl, fun h y k => by cases k; exact h⟩

/-- An entry and its update are the same where state, demand and key are. -/
theorem Entry.eq_updated {e : Entry} {st : EntryState} {d : Option Nat} {key : Nat} :
    e = { e with state := st, demand := d, key := key } ↔ e.state = st ∧ e.demand = d ∧ e.key = key := by
  constructor
  · intro h; exact ⟨congrArg Entry.state h, congrArg Entry.demand h, congrArg Entry.key h⟩
  · rintro ⟨rfl, rfl, rfl⟩; rfl

/-- The condition by which an own operation finds its entry, and an announcement its own. -/
def ownSel (role : Role) (e : Entry) : Bool := decide (e.own = true ∧ e.role = role)
def peerSel (owner : Nat) (role : Role) (e : Entry) : Bool := decide (e.owner = owner ∧ e.role = role)
theorem Board.findOwn_eq (b : Board) (r : Res) (role : Role) : b.findOwn r role = b.lists[r].find? (ownSel role) := rfl
theorem Board.find_eq (b : Board) (r : Res) (owner : Nat) (role : Role) : b.find r owner role = b.lists[r].find? (peerSel owner role) := rfl

/-- The resource is counted as changed or not. -/
theorem mem_changed_if {c : Prop} [Decidable c] {l : List Res} {r : Res} : r ∈ (if c then l else l ++ [r]) ↔ r ∈ l ∨ ¬ c := by
  split <;> simp [*]

section
variable {w : BoardWork} {p : Pair} {role : Role} {key : Nat} {st : EntryState}
  (only : ∀ x ∈ w.board.lists[p.res], ∀ y ∈ w.board.lists[p.res], ownSel role x = true → ownSel role y = true → x = y)
include only

/-- An own entry takes the values of an own update or insert (R17). -/
theorem ownReplaced {e : Entry} (found : w.board.findOwn p.res role = some e) (d : Option Nat) :
    PairPuts (ownSel role) p.res w
      { w with
        board := w.board.replace p.res e { e with state := st, demand := d, key := key }
        changed := if e = { e with state := st, demand := d, key := key } then w.changed else w.changed ++ [p.res] }
      { e with state := st, demand := d, key := key } := by
  rw [Board.findOwn_eq] at found
  have mem := List.mem_of_find?_eq_some found
  have sel : ownSel role e = true := List.find?_some found
  refine ⟨?_, ?_, rfl⟩
  · dsimp only
    rw [Board.replace_lists, if_pos rfl]
    exact .replace found (fun x hx k => only x hx e mem k sel) sel
  · dsimp only
    rw [mem_changed_if, found, Entry.changedFrom_some, Entry.eq_updated]

theorem ownInsertPair_puts {capacity : Vector Nat 16} {node : Nat} (present : capacity[p.res] ≠ 0) (room : w.board.free ≠ []) :
    ∃ new, PairPuts (ownSel role) p.res w (ownInsertPair capacity node role key st w p) new
      ∧ new.key = key ∧ new.state = st ∧ new.demand = (if role = .cip then some p.demand else none)
      ∧ (new.owner = node ∧ new.life = none ∨ ∃ e ∈ w.board.lists[p.res], e.own = true ∧ new.owner = e.owner ∧ new.life = e.life) := by
  unfold ownInsertPair
  dsimp only
  rw [if_neg present]
  split
  · rename_i e found
    exact ⟨_, ownReplaced only found _, rfl, rfl, rfl,
      .inr ⟨e, (Board.findOwn_some found).1, (Board.findOwn_some found).2.1, rfl, rfl⟩⟩
  · rename_i found
    obtain ⟨n, rest, free⟩ := List.exists_cons_of_ne_nil room
    rw [Board.findOwn_eq] at found
    refine ⟨{ num := n, owner := node, role := role, demand := if role = .cip then some p.demand else none, key := key, state := st,
              life := none, own := true }, ⟨?_, ?_, rfl⟩, rfl, rfl, rfl, .inl ⟨rfl, rfl⟩⟩
    · dsimp only
      rw [Board.takeFree_lists _ _ _ free, if_pos rfl]
      exact .insert found (by simp [ownSel])
    · rw [found]
      simp [Entry.changedFrom_none]

theorem ownUpdatePair_puts {e : Entry} (found : w.board.findOwn p.res role = some e) :
    PairPuts (ownSel role) p.res w (ownUpdatePair role key st w p)
      { e with state := st, demand := if role = .cip then some p.demand else none, key := key } := by
  unfold ownUpdatePair
  rw [found]
  exact ownReplaced only found _
end

theorem ownUpdatePair_none {w : BoardWork} {p : Pair} {role key st} (h : w.board.findOwn p.res role = none) :
    ownUpdatePair role key st w p = w := by unfold ownUpdatePair; rw [h]

/-- A pair of an announcement: an entry is put where there is one already, or room (R11, R12). -/
theorem applyPair_puts {a : Announcement} {w : BoardWork} {p : Pair}
    (only : ∀ x ∈ w.board.lists[p.res], ∀ y ∈ w.board.lists[p.res],
      peerSel a.owner a.role x = true → peerSel a.owner a.role y = true → x = y)
    (room : 7 < w.board.free.length ∨ (w.board.find p.res a.owner a.role).isSome = true) :
    ∃ new, PairPuts (peerSel a.owner a.role) p.res w (applyPair a w p) new
      ∧ new.state = a.state ∧ new.key = a.key ∧ new.demand = (if a.role = .cip then some p.demand else none)
      ∧ new.life = some a.lifeSet
      ∧ (new.own = false ∨ ∃ e ∈ w.board.lists[p.res], e.owner = a.owner ∧ new.own = e.own) := by
  unfold applyPair
  dsimp only
  cases found : w.board.find p.res a.owner a.role with
  | some e =>
    have mem := (Board.find_some found).1
    rw [Board.find_eq] at found
    have sel : peerSel a.owner a.role e = true := List.find?_some found
    refine ⟨{ e with state := a.state, demand := if a.role = .cip then some p.demand else none, key := a.key, life := some a.lifeSet },
      ⟨?_, ?_, rfl⟩, rfl, rfl, rfl, rfl, .inr ⟨e, mem, ?_, rfl⟩⟩
    · dsimp only
      rw [Board.replace_lists, if_pos rfl]
      exact .replace found (fun x hx k => only x hx e mem k sel) sel
    · dsimp only
      rw [mem_changed_if, found, Entry.changedFrom_some]
    · exact (of_decide_eq_true sel : e.owner = a.owner ∧ e.role = a.role).1
  | none =>
    have peer : 7 < w.board.free.length := room.resolve_right (by rw [found]; simp)
    obtain ⟨n, rest, free⟩ := List.exists_cons_of_ne_nil (l := w.board.free) fun e => by rw [e] at peer; cases peer
    rw [Board.find_eq] at found
    dsimp only
    rw [if_pos (show w.board.peerRoom = true from decide_eq_true peer)]
    refine ⟨{ num := n, owner := a.owner, role := a.role, demand := if a.role = .cip then some p.demand else none, key := a.key,
              state := a.state, life := some a.lifeSet, own := false }, ⟨?_, ?_, rfl⟩, rfl, rfl, rfl, rfl, .inl rfl⟩
    · dsimp only
      rw [Board.takeFree_lists _ _ _ free, if_pos rfl]
      exact .insert found (by simp [peerSel])
    · rw [found]
      simp [Entry.changedFrom_none]
/-- Without an entry and without room the pair fails, and leaves the lists (R13). -/
theorem applyPair_fails {a : Announcement} {w : BoardWork} {p : Pair} (none : w.board.find p.res a.owner a.role = none)
    (full : w.board.free.length ≤ 7) : applyPair a w p = { w with failed := w.failed ++ [p.res] } := by
  have : w.board.peerRoom = false := decide_eq_false (by show ¬ 7 < w.board.free.length; omega)
  unfold applyPair
  dsimp only
  rw [none, this]
  rfl

end Sys2Proof.Machine
end

section
/-! A verdict on a run that stands (R30, R45, R79): the round sequencer's answer to the stop, the admission unit's own part, and the
request that follows. With it the RUNNING report of the granting update (R41, R78). -/

namespace Sys2Proof.Machine

/-! ### The admission unit's part in a stop -/

/-- The own step lets its run go: the flag, the own remove, NONE, and the slot's new content (R45). -/
def State.letGo (s : State) (c : StopCause) (pairs : List Pair) : State :=
  (((s.stickyIf (decide (c = .shed)) .shed).placeOp (.ownRemove .cip (resourcesOf pairs))).onAdm (Admission.enter .none)).placeOwn
    (stopContent c pairs)

theorem State.stopRun_eq (s : State) (c : StopCause) :
    s.stopRun c = ((s.stopReported (s.stopReply c)).letGo c s.ownPairs).stopAnswered (s.stopReply c) := rfl

/-- What letting the run go leaves. -/
structure LetGo (s : State) (c : StopCause) (pairs : List Pair) (t : State) : Prop where
  frame : Untouched [.updates, .adm, .tx, .log] s t
  own : t.adm.own = .none
  content : t.tx.own = stopContent c pairs
  flag : c = .shed → t.flag .shed = true

theorem State.letGo_spec (s : State) (c : StopCause) (pairs : List Pair) : LetGo s c pairs (s.letGo c pairs) := by
  have f1 := Untouched.stickyIf s (decide (c = .shed)) .shed
  have placing : Placing (s.stickyIf (decide (c = .shed)) .shed) (s.letGo c pairs) :=
    (((Placing.refl _).placeOp (State.current_ownRemove _ .cip _)).enter _).placeOwn _
  refine ⟨?_, rfl, ?_, ?_⟩
  · exact (f1.mono (by decide)).trans (((Untouched.placeOp _ _).mono (by decide)).trans
      (((Untouched.onAdm _ _).mono (by decide)).trans ((Untouched.placeOwn _ _).mono (by decide))))
  · unfold State.letGo State.placeOwn
    simp only [State.onTx_tx, Selector.replaced]
  · rintro rfl
    exact placing.flags .shed (by simp [State.stickyIf, State.flag, State.sticky, Log.isSet_setFlag])

/-- Without an own step a release request leaves the slots, and the own step NONE (R46). -/
theorem State.releaseRequest_of_none {s : State} (h : s.adm.own = .none) :
    s.releaseRequest.tx = s.tx ∧ s.releaseRequest.adm.own = .none := by
  unfold State.releaseRequest
  split
  · exact ⟨rfl, h⟩
  · dsimp only; rw [if_pos h]; exact ⟨rfl, h⟩
theorem State.releaseIfClaims_of_none {s : State} (h : s.adm.own = .none) :
    s.releaseIfClaims.tx = s.tx ∧ s.releaseIfClaims.adm.own = .none := by
  unfold State.releaseIfClaims
  split <;> [exact ⟨rfl, h⟩; exact State.releaseRequest_of_none h]

/-! ### ROUTE_TAKEN -/

section
variable (s : State)

/-- The end of an attempt in a suspension or a shed (R79, R88). -/
theorem State.haltAttempt_spec (o : AttemptOutcome) : Untouched [.seq, .ver, .log] s (s.haltAttempt o)
    ∧ (s.haltAttempt o).seq = { s.seq with attemptOpen := false, stepTimer := .stopped, pauseTimer := .stopped }
    ∧ (s.haltAttempt o).ver = if s.seq.attemptOpen then { s.ver with mode := .off } else s.ver := by
  obtain ⟨frame, seq, ver, -⟩ := s.endAttempt_spec o
  unfold State.haltAttempt
  exact ⟨frame.trans ((Untouched.onSeq _ _).mono (by decide)), by rw [State.onSeq_seq, seq], by rw [State.onSeq_ver, ver]⟩

theorem State.enterSuspended_spec (c : Cause) : Untouched [.seq, .tx, .log] s (s.enterSuspended c)
    ∧ (s.enterSuspended c).seq = { s.seq with
        suspendCount := min (s.seq.suspendCount + 1) 255, lastCause := some c, suspendTimer := .from 0, state := .suspended } := by
  unfold State.enterSuspended
  exact ⟨((Untouched.onSeq s _).mono (by decide)).trans (Untouched.setRound _ _), by rw [State.setRound_seq, State.onSeq_seq]⟩
end

section
variable {s : State} (run : s.RunStands)
include run

theorem State.RunStands.stopReply (c : StopCause) : s.stopReply c = match c with
    | .shed => .again
    | .routeTaken => .suspends .routeTaken
    | .leaseLost => .suspends .leaseLost
    | .linkLost => if s.seq.state = .claiming then .waits else .suspends .linkLost := if_pos ⟨run.tag, run.state⟩

/-- A run that stands is stopped with ROUTE_TAKEN: the round is suspended and its share released. -/
theorem State.RunStands.routeTaken : Suspended s (s.stopRun .routeTaken) .routeTaken
    ∧ (s.stopRun .routeTaken).adm.own = .none ∧ (s.stopRun .routeTaken).tx.own = some (.release (resourcesOf s.ownPairs)) := by
  rw [State.stopRun_eq, run.stopReply]
  dsimp only [State.stopReported, State.stopAnswered]
  obtain ⟨f1, seq1, ver1⟩ := s.haltAttempt_spec Cause.routeTaken.outcome
  obtain ⟨f2, seq2⟩ := (s.haltAttempt Cause.routeTaken.outcome).enterSuspended_spec .routeTaken
  generalize s.haltAttempt Cause.routeTaken.outcome = x at *
  generalize x.enterSuspended .routeTaken = y at *
  have g := y.letGo_spec .routeTaken s.ownPairs
  generalize y.letGo .routeTaken s.ownPairs = z at *
  obtain ⟨f3, -, withdrawn, -⟩ := z.releaseIfClaims_spec
  obtain ⟨tx, own⟩ := State.releaseIfClaims_of_none g.own
  have same : z.curStep = s.curStep := by
    have seq : z.seq = y.seq := g.frame.seq (by decide)
    refine State.curStep_congr ?_ (by rw [seq, seq2, seq1]) (by rw [seq, seq2, seq1])
    rw [g.frame.store (by decide), f2.store (by decide), f1.store (by decide)]
  have seq : z.releaseIfClaims.seq = y.seq := (f3.seq (by decide)).trans (g.frame.seq (by decide))
  have ver : z.releaseIfClaims.ver = { s.ver with mode := .off } := by
    rw [f3.ver (by decide), g.frame.ver (by decide), f2.ver (by decide), ver1, if_pos run.attempt]
  have round := seq.trans (seq2.trans (by rw [seq1]))
  exact ⟨⟨by rw [round], by rw [round], by rw [round], by rw [round], by simp [round], by simp [round, ver], by simp [round],
    fun claims => (withdrawn (same ▸ claims)).1⟩, own, (congrArg Selector.own tx).trans g.content⟩
end

/-! ### SHED -/

theorem State.baseUrgency_congr {s t : State} (h1 : t.store = s.store) (h2 : t.seq.slot = s.seq.slot) :
    t.baseUrgency = s.baseUrgency := by simp [State.baseUrgency, h1, h2]

section
variable (x : State) (i : Fin 20)

/-- The attempt that a shed opens stands as one entered without CONFIRM (R76, R79). -/
theorem State.standAgain_eq : (x.openAttempt i).standAgain.seq = (x.enterStep i false).seq
    ∧ (x.openAttempt i).standAgain.ver = (x.enterStep i false).ver := by
  unfold State.enterStep State.standAgain
  dsimp only
  generalize x.openAttempt i = u
  cases hold : u.curStep.hold with
  | true => exact ⟨rfl, rfl⟩
  | false =>
    have p := u.proceed_spec
    by_cases claims : u.curStep.pairs = []
    · have : u.proceed = u.enterRunning := by unfold State.proceed; rw [claims]
      rw [if_neg (by decide), if_pos claims, if_neg (by decide), this]
      exact ⟨rfl, rfl⟩
    · obtain ⟨seq, ver, -⟩ := p.claims claims
      rw [if_neg (by decide), if_neg claims, if_neg (by decide), seq, ver, State.setRound_seq, State.setRound_ver]
      exact ⟨rfl, rfl⟩

theorem Untouched.standAgain (u : State) : Untouched [.seq, .ver, .tx, .log] u u.standAgain := by
  unfold State.standAgain State.enterRunning
  split
  · exact (Untouched.setRound _ _).mono (by decide)
  split
  · exact ((Untouched.onSeq _ _).mono (by decide)).trans (((Untouched.onVer _ _).mono (by decide)).trans
      ((Untouched.setRound _ _).mono (by decide)))
  · exact (Untouched.setRound _ _).mono (by decide)
end

/-- A fresh attempt, told by sequencer and verifier alone. -/
theorem FreshAttempt.of_same {s t t' : State} {i st} (h : FreshAttempt s t i st) (seq : t'.seq = t.seq) (ver : t'.ver = t.ver) :
    FreshAttempt s t' i st := by
  obtain ⟨a1, a2, a3, a4, a5, a6, a7, a8, a9, a10, a11⟩ := h
  constructor <;> simp only [seq, ver] <;> assumption

/-- What entering a step gives, told by sequencer, verifier and, for a step that goes on with claims, its request. -/
theorem Entered.of_same {t t' : State} {st b} (h : Entered t st b false) (seq : t'.seq = t.seq) (ver : t'.ver = t.ver)
    (asked : st.hold = false → st.pairs ≠ [] → t'.adm.standing = some ⟨st.pairs, t'.seq.tag⟩ ∧ t'.adm.urgency = b ∧ t'.adm.aging = 0) :
    Entered t' st b false := by
  unfold Entered at h ⊢
  rw [seq, ver]
  split
  · rwa [if_pos ‹_›] at h
  · rename_i hold
    rw [if_neg hold] at h
    split
    · rwa [if_pos ‹_›] at h
    · rename_i claims
      rw [if_neg claims] at h
      exact ⟨h.1, h.2.1, h.2.2.1, seq ▸ asked (by simpa using hold) claims⟩

/-- The request of the new attempt reaches the admission unit (R35, R77, R79). -/
structure Answered (z t : State) : Prop where
  frame : Untouched [.updates, .adm, .tx, .log] z t
  held : z.curStep.hold = true → t.adm.standing = none ∧ t.adm.own = .none
  asked : z.curStep.hold = false → z.curStep.pairs ≠ [] →
    t.adm.standing = some ⟨z.curStep.pairs, t.seq.tag⟩ ∧ t.adm.urgency = z.baseUrgency ∧ t.adm.aging = 0

theorem State.stopAnswered_again {z : State} (own : z.adm.own = .none)
    (waits : z.curStep.hold = false → z.curStep.pairs ≠ [] → z.seq.state = .waiting) : Answered z (z.stopAnswered .again) := by
  dsimp only [State.stopAnswered]
  split
  · rename_i h
    have r := z.releaseRequest_spec
    exact ⟨r.frame, fun _ => ⟨r.standing, (State.releaseRequest_of_none own).2⟩,
      fun hold claims => absurd h (by simp [hold, claims])⟩
  · rename_i h
    rw [not_or, Bool.not_eq_true] at h
    obtain ⟨hold, claims⟩ := h
    have r := z.receiveRequest_spec z.curStep.pairs z.seq.tag
    generalize z.receiveRequest z.curStep.pairs z.seq.tag = u at *
    have state : u.seq.state = .waiting := by rw [r.frame.seq (by decide)]; exact waits hold claims
    have t := u.takeRequest_spec (by rw [state]; decide) (by rw [state]; decide)
    refine ⟨r.frame.trans (t.frame.mono (by decide)), fun k => absurd k (by simp [hold]), fun _ _ => ⟨?_, ?_, ?_⟩⟩
    · rw [t.standing, r.standing, t.frame.seq (by decide), r.frame.seq (by decide)]
    · rw [t.urgency, r.urgency]
    · rw [t.aging, r.aging]

section
variable {s : State} (run : s.RunStands)
include run

/-- A run that stands is shed: the step's next attempt begins, its request after the release. -/
theorem State.RunStands.shed : (s.stopRun .shed).flag .shed = true ∧ FreshAttempt s (s.stopRun .shed) s.seq.pointer s.curStep
    ∧ Entered (s.stopRun .shed) s.curStep s.baseUrgency false
    ∧ (s.curStep.hold = true → (s.stopRun .shed).adm.standing = none ∧ (s.stopRun .shed).adm.own = .none) := by
  have flag : (s.stopRun .shed).flag .shed = true := by
    rw [State.stopRun_eq]
    exact ((Placing.refl _).stopAnswered _).flags .shed ((State.letGo_spec _ .shed _).flag rfl)
  refine ⟨flag, ?_⟩
  rw [State.stopRun_eq, run.stopReply]
  dsimp only [State.stopReported]
  obtain ⟨f1, seq1, -⟩ := s.haltAttempt_spec .shed
  generalize s.haltAttempt .shed = x at *
  obtain ⟨seq2, ver2⟩ := x.standAgain_eq s.seq.pointer
  obtain ⟨f2, open2, -⟩ := x.openAttempt_spec s.seq.pointer
  have f3 := Untouched.standAgain (x.openAttempt s.seq.pointer)
  obtain ⟨fresh, entered, -, -, -, -, -, seq4, -⟩ := x.enterStep_spec s.seq.pointer false
  generalize x.enterStep s.seq.pointer false = e at *
  generalize (x.openAttempt s.seq.pointer).standAgain = y at *
  have g := y.letGo_spec .shed s.ownPairs
  generalize y.letGo .shed s.ownPairs = z at *
  have step : x.stepAt s.seq.pointer = s.curStep := by
    simp [State.stepAt, State.curStep, f1.store (by decide), seq1]
  have base : x.baseUrgency = s.baseUrgency := State.baseUrgency_congr (f1.store (by decide)) (by rw [seq1])
  have slot : z.seq.slot = s.seq.slot ∧ z.seq.pointer = s.seq.pointer := by
    rw [g.frame.seq (by decide), seq2]
    exact ⟨by rw [seq4, open2, seq1], fresh.pointer⟩
  have store : z.store = s.store := by
    rw [g.frame.store (by decide), f3.store (by decide), f2.store (by decide), f1.store (by decide)]
  have same : z.curStep = s.curStep := State.curStep_congr store slot.1 slot.2
  have baseZ : z.baseUrgency = s.baseUrgency := State.baseUrgency_congr store slot.1
  rw [step] at fresh
  rw [step, base] at entered
  have a := State.stopAnswered_again g.own (by
    intro hold claims
    rw [same] at hold claims
    unfold Entered at entered
    rw [if_neg (by simp [hold]), if_neg claims] at entered
    rw [g.frame.seq (by decide), seq2]
    exact entered.1)
  generalize z.stopAnswered .again = t at *
  have seqT : t.seq = e.seq := by rw [a.frame.seq (by decide), g.frame.seq (by decide), seq2]
  have verT : t.ver = e.ver := by rw [a.frame.ver (by decide), g.frame.ver (by decide), ver2]
  refine ⟨(fresh.of_same seqT verT).congr (by rw [seq1]) (f1.settings (by decide)), ?_, fun hold => a.held (same ▸ hold)⟩
  refine entered.of_same seqT verT fun hold claims => ?_
  have := a.asked (same ▸ hold) (same ▸ claims)
  rwa [same, baseZ] at this
end

/-! ### A verdict -/

theorem VerdictActed.of_none (s t : State) : VerdictActed s t none := ⟨nofun, nofun⟩

section
variable {s t : State}

/-- A verdict acted on, judged from a state with the same round, request and settings. -/
theorem VerdictActed.congr {u : State} {v} (h : VerdictActed u t v) (seq : u.seq = s.seq) (standing : u.adm.standing = s.adm.standing)
    (settings : u.settings = s.settings) (store : u.store = s.store) : VerdictActed s t v := by
  have pairs : u.ownPairs = s.ownPairs := State.ownPairs_congr standing
  have step : u.curStep = s.curStep := State.curStep_congr store (by rw [seq]) (by rw [seq])
  have base : u.baseUrgency = s.baseUrgency := State.baseUrgency_congr store (by rw [seq])
  refine ⟨fun e => ?_, fun e => ?_⟩
  · obtain ⟨⟨h1, h2, h3, h4, h5, h6, h7, h8⟩, own, content⟩ := h.routeTaken e
    rw [seq] at h2 h7
    rw [step] at h8
    rw [pairs] at content
    exact ⟨⟨h1, h2, h3, h4, h5, h6, h7, h8⟩, own, content⟩
  · obtain ⟨flag, fresh, entered, held⟩ := h.shed e
    rw [step, seq] at fresh
    rw [step, base] at entered
    rw [step] at held
    exact ⟨flag, fresh.congr (by rw [seq]) settings, entered, held⟩

theorem VerdictActed.finish {v} (h : VerdictActed s t v) : VerdictActed s t.finish v := by
  refine ⟨fun e => ?_, fun e => ?_⟩
  · obtain ⟨⟨h1, h2, h3, h4, h5, h6, h7, h8⟩, own, content⟩ := h.routeTaken e
    rw [State.finish_adm, State.finish_own]
    exact ⟨⟨by rwa [State.finish_seq], by rwa [State.finish_seq], by rwa [State.finish_seq], by rwa [State.finish_seq],
      by rwa [State.finish_seq], by rwa [State.finish_seq, State.finish_ver], by rwa [State.finish_seq], by rwa [State.finish_adm]⟩,
      own, content⟩
  · obtain ⟨flag, fresh, entered, held⟩ := h.shed e
    rw [State.finish_adm]
    exact ⟨by unfold State.flag at flag ⊢; rwa [State.finish_log], fresh.finish, entered.finish, held⟩

theorem State.RunStands.congr {u : State} (h : s.RunStands) (seq : u.seq = s.seq) (own : u.adm.own = s.adm.own)
    (standing : u.adm.standing = s.adm.standing) : u.RunStands := by
  obtain ⟨h1, h2, h3, h4⟩ := h
  rw [← seq] at h3 h4
  exact ⟨own.trans h1, by unfold State.tagCurrent at h2 ⊢; rwa [standing, seq], h3, h4⟩

/-- A verdict on a run that stands is acted on (R30, R45). -/
theorem State.RunStands.actVerdict (run : s.RunStands) (v : Option Verdict) : VerdictActed s (s.actVerdict v) v := by
  cases v with
  | none => exact .of_none _ _
  | some x =>
    have : s.actVerdict (some x) = s.stopRun x.cause := if_pos run.own
    rw [this]
    cases x with
    | routeTaken => exact ⟨fun _ => run.routeTaken, nofun⟩
    | shed => exact ⟨nofun, fun _ => run.shed⟩

/-- A run does not wait for an evaluation, so that a notice asks for none (R32). -/
theorem State.notice_of_running (h : s.adm.own = .running) (touched) : s.notice touched = s := by
  unfold State.notice State.requestEval
  simp [h, OwnState.evaluated]
theorem State.RunStands.hallResult (run : s.RunStands) (touched) :
    VerdictActed s (s.hallResult touched) (verdictFor s.settings.capacity s.board touched) := by
  unfold State.hallResult
  rw [State.notice_of_running run.own]
  exact run.actVerdict _

/-- The result of an own update, where there is a verdict or it is not the granting one (R41). -/
theorem State.updateResult_acts {st : EntryState} {touched} {v} (e : s.verdict touched = v)
    (h : v ≠ none ∨ ¬(s.opDone.adm.granting = true ∧ st = .running ∧ s.opDone.adm.own = .running)) :
    s.updateResult st touched = s.opDone.actVerdict v := by
  unfold State.updateResult
  dsimp only
  rw [e]
  split
  · rename_i granting
    cases v with
    | none => exact absurd granting (h.resolve_left fun k => k rfl)
    | some x => exact (if_pos granting.2.2).symm
  · rfl

/-- The granting update without a verdict reports RUNNING, and the round runs (R41, R78, R81). -/
theorem State.updateResult_grants {touched} (e : s.verdict touched = none) (granting : s.opDone.adm.granting = true)
    (run : s.opDone.RunStands) (claiming : s.opDone.seq.state = .claiming) :
    (s.updateResult .running touched).seq.state = .running ∧ (s.updateResult .running touched).seq.stepTimer = .from 0
      ∧ (s.updateResult .running touched).ver.mode = .burst ∧ (s.updateResult .running touched).adm.own = .running := by
  have form : s.updateResult .running touched = (s.opDone.onAdm fun a => { a with granting := false }).reportRunning := by
    unfold State.updateResult
    dsimp only
    rw [if_pos ⟨granting, rfl, run.own⟩, e]
  have current : (s.opDone.onAdm fun a => { a with granting := false }).tagCurrent = true := run.tag
  rw [form]
  unfold State.reportRunning
  rw [if_pos current]
  have state : (s.opDone.onAdm fun a => { a with granting := false }).seq.state = .claiming := claiming
  split
  · rename_i k; rw [state] at k; cases k
  · unfold State.enterRunning
    rw [State.setRound_seq, State.setRound_ver, State.setRound_adm]
    exact ⟨rfl, rfl, rfl, run.own⟩
  · rename_i k; exact absurd state k
end

end Sys2Proof.Machine
end

section
/-! An operation's pairs carried out (R11, R12, R17, R21): what stands on every list afterwards, where something changed, and the
overcommit check. With it the own inserts and updates. -/

namespace Sys2Proof.Machine

/-! ### The pairs of an operation, each on its own resource -/

/-- A pair done: its entry is put on the list, or nothing changes on a list without one. -/
def PairDone (sel : Entry → Bool) (r : Res) (w w' : BoardWork) : Prop :=
  (∃ new, PairPuts sel r w w' new) ∨
    w'.board.lists[r] = w.board.lists[r] ∧ (r ∈ w'.changed ↔ r ∈ w.changed) ∧ w.board.lists[r].find? sel = none

section
variable {sel : Entry → Bool} {f : BoardWork → Pair → BoardWork} (each : ∀ w p, PairLocal p.res w (f w p))
  {pairs : List Pair} (nd : (pairs.map (·.res)).Nodup) {w : BoardWork}
  (does : ∀ p ∈ pairs, ∀ u, SameAt p.res w u → w.board.free.length + 1 ≤ u.board.free.length + pairs.length →
    PairDone sel p.res u (f u p))
include each nd does

/-- The entries that the operation does not look for stay where they are. -/
theorem foldl_pairs_others (r : Res) :
    ((pairs.foldl f w).board.lists[r]).filter (fun e => !sel e) = (w.board.lists[r]).filter fun e => !sel e := by
  by_cases named : ∃ p ∈ pairs, p.res = r
  · obtain ⟨p, hp, rfl⟩ := named
    obtain ⟨u, first, last, room, -⟩ := foldl_pairs_at each nd w hp
    rw [last.lists, ← first.lists]
    rcases does p hp u first room with ⟨new, puts⟩ | ⟨same, -, -⟩
    · exact puts.puts.others
    · rw [same]
  · rw [(foldl_pairs_off each (fun p hp e => named ⟨p, hp, e⟩) w).lists]

/-- The resources on which the operation inserted or changed an entry (R21). -/
theorem foldl_pairs_changed {r : Res} (before : r ∉ w.changed) : r ∈ (pairs.foldl f w).changed ↔ (∃ p ∈ pairs, p.res = r) ∧
    ∃ e, (pairs.foldl f w).board.lists[r].find? sel = some e ∧ e.changedFrom (w.board.lists[r].find? sel) := by
  by_cases named : ∃ p ∈ pairs, p.res = r
  · obtain ⟨p, hp, rfl⟩ := named
    obtain ⟨u, first, last, room, -⟩ := foldl_pairs_at each nd w hp
    rw [last.lists, ← first.lists, last.changed]
    rw [← first.changed] at before
    rcases does p hp u first room with ⟨new, puts⟩ | ⟨same, changed, none⟩
    · rw [puts.changed, puts.puts.found, or_iff_right before]
      exact ⟨fun k => ⟨⟨p, hp, rfl⟩, new, rfl, k⟩, fun ⟨_, e, he, k⟩ => by cases he; exact k⟩
    · rw [changed, same, none]
      exact ⟨fun k => absurd k before, nofun⟩
  · rw [(foldl_pairs_off each (fun p hp e => named ⟨p, hp, e⟩) w).changed]
    exact ⟨fun k => absurd k before, fun k => absurd k.1 named⟩
end

/-! ### The overcommit check -/

theorem overcommitted_iff {capacity : Vector Nat 16} {b : Board} {rs : List Res} :
    overcommitted capacity b rs = true ↔ ∃ r ∈ rs, overfull capacity[r] b.lists[r] := by
  simp only [overcommitted, List.any_eq_true, decide_eq_true_eq]
  rfl
theorem State.stickyIf_flag (s : State) (c : Bool) (f : Sticky) : (s.stickyIf c f).flag f = true ↔ s.flag f = true ∨ c = true := by
  cases c <;> simp [State.stickyIf, State.flag, State.sticky, Log.isSet_setFlag]

/-! ### Own inserts and updates -/

/-- The work of an own insert, and of an own update, on the node's board. -/
def State.insertWork (s : State) (role : Role) (pairs : List Pair) (key : Nat) (st : EntryState) : BoardWork :=
  pairs.foldl (ownInsertPair s.settings.capacity s.settings.node role key st) ⟨s.board, [], []⟩
def State.updateWork (s : State) (role : Role) (pairs : List Pair) (key : Nat) (st : EntryState) : BoardWork :=
  pairs.foldl (ownUpdatePair role key st) ⟨s.board, [], []⟩

/-- What an own operation's work leaves, for both kinds. -/
structure OwnWork (role : Role) (pairs : List Pair) (b : Board) (w : BoardWork) : Prop where
  others : ∀ r : Res, (w.board.lists[r]).filter (fun e => decide (¬(e.own = true ∧ e.role = role)))
    = (b.lists[r]).filter fun e => decide (¬(e.own = true ∧ e.role = role))
  changed : ∀ r, r ∈ w.changed ↔ (∃ p ∈ pairs, p.res = r) ∧
    ∃ e, w.board.findOwn r role = some e ∧ e.changedFrom (b.findOwn r role)

theorem OwnWork.of_pairs {b : Board} {role : Role} {pairs : List Pair} (nd : (pairs.map (·.res)).Nodup)
    {f : BoardWork → Pair → BoardWork} (each : ∀ w p, PairLocal p.res w (f w p))
    (does : ∀ p ∈ pairs, ∀ u, SameAt p.res ⟨b, [], []⟩ u → b.free.length + 1 ≤ u.board.free.length + pairs.length →
      PairDone (ownSel role) p.res u (f u p)) : OwnWork role pairs b (pairs.foldl f ⟨b, [], []⟩) := by
  refine ⟨fun r => ?_, fun r => foldl_pairs_changed each nd does List.not_mem_nil⟩
  have := foldl_pairs_others each nd does r
  simpa only [ownSel, decide_not] using this

section
variable {s : State} (h : s.Ranked) {role : Role} {pairs : List Pair} (nd : (pairs.map (·.res)).Nodup) {key : Nat} {st : EntryState}
include h

/-- A ranked list has one own entry of a role. -/
theorem State.Ranked.own_unique {r : Res} {l : List Entry} (e : l = s.board.lists[r]) :
    ∀ x ∈ l, ∀ y ∈ l, ownSel role x = true → ownSel role y = true → x = y := by
  subst e
  intro x hx y hy kx ky
  obtain ⟨ox, rx⟩ := (of_decide_eq_true kx : x.own = true ∧ x.role = role)
  obtain ⟨oy, ry⟩ := (of_decide_eq_true ky : y.own = true ∧ y.role = role)
  refine (h.orderly.ranked r).unique hx hy ?_ (rx.trans ry.symm)
  rw [(h.orderly.own_iff hx).1 ox, (h.orderly.own_iff hy).1 oy]

theorem State.Ranked.insert_does (room : pairs.length ≤ s.board.free.length) {p : Pair} {u : BoardWork}
    (first : SameAt p.res ⟨s.board, [], []⟩ u) (left : s.board.free.length + 1 ≤ u.board.free.length + pairs.length) :
    PairDone (ownSel role) p.res u (ownInsertPair s.settings.capacity s.settings.node role key st u p) := by
  by_cases present : s.settings.capacity[p.res] = 0
  · refine .inr ?_
    have same : ownInsertPair s.settings.capacity s.settings.node role key st u p = u := if_pos present
    rw [same, first.lists, h.absent p.res present]
    exact ⟨rfl, .rfl, rfl⟩
  · obtain ⟨new, puts, -⟩ := ownInsertPair_puts (key := key) (st := st) (node := s.settings.node)
      (h.own_unique first.lists) present (List.length_pos_iff.1 (by omega))
    exact .inl ⟨new, puts⟩
theorem State.Ranked.update_does {p : Pair} {u : BoardWork} (first : SameAt p.res ⟨s.board, [], []⟩ u) :
    PairDone (ownSel role) p.res u (ownUpdatePair role key st u p) := by
  cases found : u.board.findOwn p.res role with
  | some e => exact .inl ⟨_, ownUpdatePair_puts (h.own_unique first.lists) found⟩
  | none => rw [ownUpdatePair_none found]; exact .inr ⟨rfl, .rfl, found⟩

include nd

/-- The work of an own insert: no other entry moves, and each resource with a new entry or a changed one is noted. -/
theorem State.Ranked.insert_work (room : pairs.length ≤ s.board.free.length) :
    OwnWork role pairs s.board (s.insertWork role pairs key st) :=
  .of_pairs nd (ownInsertPair_local _ _ _ _ _) fun _ _ _ first left => h.insert_does room first left
theorem State.Ranked.update_work : OwnWork role pairs s.board (s.updateWork role pairs key st) :=
  .of_pairs nd (ownUpdatePair_local _ _ _) fun _ _ _ first _ => h.update_does first

/-- The own entries of an insert (R17): on every named resource that is present. -/
theorem State.Ranked.inserted (room : pairs.length ≤ s.board.free.length) {p : Pair} (hp : p ∈ pairs)
    (present : s.settings.capacity[p.res] ≠ 0) :
    ∃ e, (s.insertWork role pairs key st).board.findOwn p.res role = some e
      ∧ e.key = key ∧ e.state = st ∧ e.owner = s.settings.node ∧ e.life = none
      ∧ e.demand = if role = .cip then some p.demand else none := by
  obtain ⟨u, first, last, left, -⟩ := foldl_pairs_at
    (ownInsertPair_local s.settings.capacity s.settings.node role key st) nd ⟨s.board, [], []⟩ hp
  obtain ⟨new, puts, k, state, demand, origin⟩ := ownInsertPair_puts (role := role) (key := key) (st := st) (node := s.settings.node)
    (h.own_unique first.lists) present (List.length_pos_iff.1 (by dsimp only at left; omega))
  rw [State.insertWork, Board.findOwn_eq, last.lists]
  refine ⟨new, puts.puts.found, k, state, ?_, ?_, demand⟩ <;>
    rcases origin with ⟨owner, life⟩ | ⟨e, he, own, owner, life⟩ <;> try assumption
  · rw [first.lists] at he; rw [owner, (h.orderly.own_iff he).1 own]
  · rw [first.lists] at he; rw [life, ((h.entries _ e he).life.1 own)]

/-- An own update gives a named own entry its new values (R17). -/
theorem State.Ranked.updated {p : Pair} (hp : p ∈ pairs) {old : Entry} (found : s.board.findOwn p.res role = some old) :
    (s.updateWork role pairs key st).board.findOwn p.res role = some { old with
      key := key, state := st, demand := if role = .cip then some p.demand else none } := by
  obtain ⟨u, first, last, -, -⟩ := foldl_pairs_at (ownUpdatePair_local role key st) nd ⟨s.board, [], []⟩ hp
  rw [State.updateWork, Board.findOwn_eq, last.lists]
  have found : u.board.findOwn p.res role = some old := by rw [Board.findOwn_eq, first.lists]; exact found
  exact (ownUpdatePair_puts (h.own_unique first.lists) found).puts.found
end

/-- A resource that an insert does not name, or that is absent, keeps its list (R17). -/
theorem State.insertWork_off (s : State) {role key st} {pairs : List Pair} (nd : (pairs.map (·.res)).Nodup) {r : Res}
    (off : (∀ p ∈ pairs, p.res ≠ r) ∨ s.settings.capacity[r] = 0) :
    (s.insertWork role pairs key st).board.lists[r] = s.board.lists[r] := by
  have each := ownInsertPair_local s.settings.capacity s.settings.node role key st
  unfold State.insertWork
  by_cases named : ∃ p ∈ pairs, p.res = r
  · obtain ⟨p, hp, rfl⟩ := named
    have absent : s.settings.capacity[p.res] = 0 := off.resolve_left fun k => k p hp rfl
    obtain ⟨u, first, last, -, -⟩ := foldl_pairs_at each nd ⟨s.board, [], []⟩ hp
    have same : ownInsertPair s.settings.capacity s.settings.node role key st u p = u := if_pos absent
    rw [last.lists, same, first.lists]
  · rw [(foldl_pairs_off each (fun p hp e => named ⟨p, hp, e⟩) _).lists]

/-- An own update takes no free entry (R17). -/
theorem State.updateWork_free (s : State) {role pairs key st} : (s.updateWork role pairs key st).board.free = s.board.free := by
  refine List.foldlRecOn (motive := fun u : BoardWork => u.board.free = s.board.free) pairs _ rfl fun u hu p _ => ?_
  unfold ownUpdatePair
  split <;> exact hu

/-! ### An own operation on the whole node -/

/-- The node with an own operation's board and its overcommit check (R17, R21). -/
def State.ownBoard (s : State) (b : Board) (w : BoardWork) : State :=
  (s.onBoard fun _ => b).stickyIf (overcommitted s.settings.capacity w.board w.changed) .overcommit

section
variable {s : State} {b : Board} {w : BoardWork}

theorem Untouched.ownBoard : Untouched [.board, .log] s (s.ownBoard b w) :=
  ((Untouched.onBoard s _).mono (by decide)).trans ((Untouched.stickyIf _ _ _).mono (by decide))
theorem State.ownBoard_board : (s.ownBoard b w).board = b := by
  unfold State.ownBoard State.stickyIf
  split <;> rfl

/-- OVERCOMMIT where an own entry is new or changed on a resource then overfull (R21). -/
theorem OwnWork.overcommit {role pairs} (k : OwnWork role pairs s.board w) (lists : b.lists = w.board.lists) :
    (s.ownBoard b w).flag .overcommit = true ↔ s.flag .overcommit = true ∨
      ∃ p ∈ pairs, ∃ e, b.findOwn p.res role = some e ∧ e.changedFrom (s.board.findOwn p.res role)
        ∧ overfull s.settings.capacity[p.res] b.lists[p.res] := by
  unfold State.ownBoard
  rw [State.stickyIf_flag, overcommitted_iff]
  refine or_congr .rfl ⟨fun ⟨r, hr, full⟩ => ?_, fun ⟨p, hp, e, found, changed, full⟩ => ?_⟩
  · obtain ⟨⟨p, hp, rfl⟩, e, found, changed⟩ := (k.changed r).1 hr
    simp only [Board.findOwn_eq, lists]
    exact ⟨p, hp, e, found, changed, full⟩
  · simp only [Board.findOwn_eq, lists] at found full
    exact ⟨p.res, (k.changed _).2 ⟨⟨p, hp, rfl⟩, e, found, changed⟩, full⟩

theorem State.handedBack_granting (v : State) : v.dequeue.opDone.adm.granting = v.adm.granting := by
  rw [State.opDone_adm, State.dequeue_adm]; split <;> rfl

/-- A run that stands still stands as an own operation's result is handed back. -/
theorem State.RunStands.handedBack (run : s.RunStands) : (s.ownBoard b w).dequeue.opDone.RunStands := by
  have step := (s.ownBoard b w).handedBack_step
  rw [Untouched.ownBoard.adm (by decide)] at step
  refine run.congr ?_ step.own step.standing
  rw [(Untouched.opDone _).seq (by decide), (Untouched.dequeue _).seq (by decide), Untouched.ownBoard.seq (by decide)]

/-- The verdict acted on as the result is handed back is acted on from before the operation. -/
theorem VerdictActed.handedBack {t : State} {v} (acted : VerdictActed (s.ownBoard b w).dequeue.opDone t v) :
    VerdictActed s t.finish v := by
  have step := (s.ownBoard b w).handedBack_step
  rw [Untouched.ownBoard.adm (by decide)] at step
  refine acted.finish.congr ?_ step.standing ?_ ?_
  · rw [(Untouched.opDone _).seq (by decide), (Untouched.dequeue _).seq (by decide), Untouched.ownBoard.seq (by decide)]
  · rw [(Untouched.opDone _).settings (by decide), (Untouched.dequeue _).settings (by decide), Untouched.ownBoard.settings (by decide)]
  · rw [(Untouched.opDone _).store (by decide), (Untouched.dequeue _).store (by decide), Untouched.ownBoard.store (by decide)]

theorem State.ownBoard_verdict (touched) :
    (s.ownBoard b w).dequeue.verdict touched = verdictFor s.settings.capacity b touched := by
  unfold State.verdict
  rw [(Untouched.dequeue _).settings (by decide), Untouched.ownBoard.settings (by decide), (Untouched.dequeue _).board (by decide),
    State.ownBoard_board]

/-- The result of an own operation on a run that stands: its verdict is acted on. -/
theorem State.ownResult_acted {x : State} {touched} (run : x.opDone.RunStands) :
    VerdictActed x.opDone (x.ownResult touched) (x.verdict touched) := run.actVerdict _
/-- The result of an own update on a run that stands: its verdict is acted on. -/
theorem State.updateResult_acted {x : State} {st touched} (run : x.opDone.RunStands) :
    VerdictActed x.opDone (x.updateResult st touched) (x.verdict touched) := by
  cases e : x.verdict touched with
  | none => exact .of_none _ _
  | some v =>
    rw [State.updateResult_acts e (.inl nofun)]
    exact run.actVerdict _
end

/-- An own PRODUCT entry held on a resource where the own step runs takes its route (R22, R30). -/
theorem verdictFor_held {capacity : Vector Nat 16} {b b' : Board} {pairs : List Pair} {p : Pair} (hp : p ∈ pairs) {own held : Entry}
    (others : (b'.lists[p.res]).filter (fun e => decide (¬(e.own = true ∧ e.role = .product)))
      = (b.lists[p.res]).filter fun e => decide (¬(e.own = true ∧ e.role = .product)))
    (found : b.findOwn p.res .cip = some own) (runs : own.state = .running)
    (placed : b'.findOwn p.res .product = some held) (state : held.state = .held) :
    verdictFor capacity b' (resourcesOf pairs) = some .routeTaken := by
  refine (verdictFor_iff _ _ _).1.2 ⟨p.res, mem_resourcesOf.2 ⟨p, hp, rfl⟩, (verdictOn_iff _ _ _).1.2 ⟨own, ?_, runs, held, ?_, state⟩⟩
  · rw [← found, Board.findOwn_eq, Board.findOwn_eq]
    refine find?_of_others (sel := ownSel .product) (by simpa only [ownSel, decide_not] using others) fun e k => ?_
    simp only [ownSel, decide_eq_true_eq] at k
    simp [ownSel, k.2]
  · exact (Board.findOwn_some placed).1

end Sys2Proof.Machine

open Sys2Proof Sys2Proof.Machine

/-- Settles O28: each pair puts its own entry on its own resource, and the result's verdict is acted on by a run that stands. -/
theorem ownEntriesPlaced : Obligations.OwnEntriesPlaced := by
  intro s role pairs key st rest ranked nd
  refine ⟨fun head room => ?_, fun head => ?_⟩
  · have run : exec .ownInsert s = done ((s.ownBoard (s.insertWork role pairs key st).board.holdTimers
        (s.insertWork role pairs key st)).dequeue.ownResult (resourcesOf pairs)) := by
      show done _ = _; rw [head]; rfl
    have work := ranked.insert_work (role := role) (key := key) (st := st) nd room
    have off (r : Res) (h) := s.insertWork_off (role := role) (key := key) (st := st) nd (r := r) h
    have placed (p) (hp : p ∈ pairs) (present) := ranked.inserted (role := role) (key := key) (st := st) nd room hp present
    generalize s.insertWork role pairs key st = w at *
    have k : OwnDone s (s.ownBoard w.board.holdTimers w) rest _
        ((s.ownBoard w.board.holdTimers w).dequeue.ownResult (resourcesOf pairs)).finish :=
      .of_placing .ownBoard head ((Placing.refl _).actVerdict _)
    have lists : w.board.holdTimers.lists = w.board.lists := Board.holdTimers_lists _
    have board := k.board.trans State.ownBoard_board
    have acted (stands : s.RunStands) : VerdictActed s ((s.ownBoard w.board.holdTimers w).dequeue.ownResult (resourcesOf pairs)).finish
        (verdictFor s.settings.capacity w.board.holdTimers (resourcesOf pairs)) := by
      rw [← State.ownBoard_verdict (s := s) (w := w)]
      exact (State.ownResult_acted stands.handedBack).handedBack
    refine ⟨_, run, k.frame, k.queue, fun still => k.still (State.actVerdict_of_not_running ?_ _), fun r => ?_, fun r h => ?_,
      fun p hp present => ?_, ?_, fun stands => ⟨?_, fun product held taken => ?_⟩⟩
    · rw [(State.handedBack_step _).own, Untouched.ownBoard.adm (by decide)]; exact still
    · rw [board, lists]; exact work.others r
    · rw [board, lists]; exact off r h
    · rw [board, Board.findOwn_eq, lists]; exact placed p hp present
    · rw [k.overcommit, board]; exact work.overcommit lists
    · rw [board]; exact acted stands
    · obtain ⟨p, hp, present, own, found, runs⟩ := taken
      obtain ⟨e, put, -, state, -⟩ := placed p hp present
      subst product
      refine ((acted stands).routeTaken (verdictFor_held hp ?_ found runs (held := e) ?_ (state.trans held))).1
      · rw [lists]; exact work.others _
      · rw [Board.findOwn_eq, lists]; exact put
  · have run : exec .ownUpdate s = done ((s.ownBoard (s.updateWork role pairs key st).board
        (s.updateWork role pairs key st)).dequeue.updateResult st (resourcesOf pairs)) := by
      show done _ = _; rw [head]; rfl
    have work := ranked.update_work (role := role) (key := key) (st := st) nd
    have free := s.updateWork_free (role := role) (key := key) (st := st) (pairs := pairs)
    have updated (p) (hp : p ∈ pairs) (old found) := ranked.updated (role := role) (key := key) (st := st) nd hp (old := old) found
    generalize s.updateWork role pairs key st = w at *
    have k : OwnDone s (s.ownBoard w.board w) rest _ ((s.ownBoard w.board w).dequeue.updateResult st (resourcesOf pairs)).finish :=
      .of_placing .ownBoard head (State.updateResult_placing _ _ _)
    have board := k.board.trans State.ownBoard_board
    have own : (s.ownBoard w.board w).dequeue.opDone.adm.own = s.adm.own := by
      rw [(State.handedBack_step _).own, Untouched.ownBoard.adm (by decide)]
    refine ⟨_, run, k.frame, k.queue, fun still => k.still ?_, ?_, fun r => ?_, fun p hp old found => ?_, ?_,
      fun stands => ⟨?_, fun none claiming granting running => ?_⟩⟩
    · rw [State.updateResult_acts rfl (.inr fun k => still (own ▸ k.2.2))]
      exact State.actVerdict_of_not_running (own ▸ still) _
    · rw [board]; exact free
    · rw [board]; exact work.others r
    · rw [board]; exact updated p hp old found
    · rw [k.overcommit, board]; exact work.overcommit rfl
    · rw [board, ← State.ownBoard_verdict (s := s) (w := w)]
      exact (State.updateResult_acted stands.handedBack).handedBack
    · subst running
      rw [board, ← State.ownBoard_verdict (s := s) (w := w)] at none
      rw [State.finish_seq, State.finish_ver, State.finish_adm]
      refine State.updateResult_grants none ?_ stands.handedBack ?_
      · rw [State.handedBack_granting, Untouched.ownBoard.adm (by decide)]; exact granting
      · rw [State.opDone_seq, State.dequeue_seq, Untouched.ownBoard.seq (by decide)]; exact claiming

end

section
/-! Announcements (R10 to R13, R21): the removal pass, the listed pairs, the failures, and the operation on the whole node. -/

namespace Sys2Proof.Machine

/-! ### The removal pass (R11) -/

section
variable {owner : Nat} {listed : List Res}

/-- One resource of the removal pass. -/
def removeAt (owner : Nat) (listed : List Res) (acc : Board × List Res) (r : Res) : Board × List Res :=
  if r ∉ listed ∧ (acc.1.find r owner .cip).isSome then
    (acc.1.unlink r fun e => decide (e.owner = owner ∧ e.role = .cip), acc.2 ++ [r])
  else acc
theorem removalPass_eq (owner : Nat) (listed : List Res) (b : Board) :
    removalPass owner listed b = allRes.foldl (removeAt owner listed) (b, []) := rfl

/-- Where no entry meets the condition, all that do not are the whole list. -/
theorem filter_not_of_find?_none {sel : Entry → Bool} {l : List Entry} (h : l.find? sel = none) :
    (l.filter fun e => !sel e) = l :=
  List.filter_eq_self.2 fun e he => by simpa using List.find?_eq_none.1 h e he
theorem find?_filter_not (sel : Entry → Bool) (l : List Entry) : (l.filter fun e => !sel e).find? sel = none :=
  List.find?_eq_none.2 fun e he => by simpa using (List.mem_filter.1 he).2

theorem removeAt_lists (acc : Board × List Res) (r q : Res) : (removeAt owner listed acc r).1.lists[q] =
    if q = r ∧ r ∉ listed then (acc.1.lists[q]).filter fun e => !peerSel owner .cip e else acc.1.lists[q] := by
  unfold removeAt
  by_cases leaves : r ∉ listed ∧ (acc.1.find r owner .cip).isSome = true
  · rw [if_pos leaves]
    dsimp only
    rw [Board.unlink_lists]
    by_cases e : q = r
    · subst e; rw [if_pos rfl, if_pos ⟨rfl, leaves.1⟩]; rfl
    · rw [if_neg e, if_neg fun k => e k.1]
  · rw [if_neg leaves]
    by_cases e : q = r ∧ r ∉ listed
    · obtain ⟨rfl, off⟩ := e
      have none : acc.1.find q owner .cip = none := by simpa [off] using leaves
      rw [if_pos ⟨rfl, off⟩, filter_not_of_find?_none (sel := peerSel owner .cip) none]
    · rw [if_neg e]

theorem removeAt_removed (acc : Board × List Res) (r q : Res) : q ∈ (removeAt owner listed acc r).2 ↔
    q ∈ acc.2 ∨ q = r ∧ r ∉ listed ∧ (acc.1.find q owner .cip).isSome = true := by
  unfold removeAt
  by_cases leaves : r ∉ listed ∧ (acc.1.find r owner .cip).isSome = true
  · rw [if_pos leaves, List.mem_append, List.mem_singleton]
    exact or_congr .rfl ⟨fun e => ⟨e, leaves.1, e ▸ leaves.2⟩, fun k => k.1⟩
  · rw [if_neg leaves]
    exact ⟨.inl, fun k => k.resolve_right fun ⟨e, off, found⟩ => leaves ⟨off, e ▸ found⟩⟩

theorem removeAt_free (acc : Board × List Res) (r : Res) :
    acc.1.free.length ≤ (removeAt owner listed acc r).1.free.length := by
  unfold removeAt
  split
  · rw [Board.unlink_free, List.length_append]; omega
  · exact le_rfl

theorem removeAll_lists (rs : List Res) (acc : Board × List Res) (q : Res) : (rs.foldl (removeAt owner listed) acc).1.lists[q] =
    if q ∈ rs ∧ q ∉ listed then (acc.1.lists[q]).filter fun e => !peerSel owner .cip e else acc.1.lists[q] := by
  induction rs generalizing acc with
  | nil => simp
  | cons r rs ih =>
    rw [List.foldl_cons, ih, removeAt_lists]
    by_cases off : q ∈ listed
    · simp only [off, not_true_eq_false, and_false, if_false]
      exact if_neg fun ⟨e, k⟩ => k (e ▸ off)
    · by_cases e : q = r
      · subst e; simp [off]
      · simp [e, off]
theorem removeAll_removed (rs : List Res) (acc : Board × List Res) (q : Res) : q ∈ (rs.foldl (removeAt owner listed) acc).2 ↔
    q ∈ acc.2 ∨ q ∈ rs ∧ q ∉ listed ∧ (acc.1.find q owner .cip).isSome = true := by
  induction rs generalizing acc with
  | nil => simp
  | cons r rs ih =>
    rw [List.foldl_cons, ih, removeAt_removed, Board.find_eq, Board.find_eq, removeAt_lists]
    by_cases e : q = r
    · subst e
      by_cases off : q ∈ listed <;> simp [off]
    · simp [e]

/-- The pass takes the owner's CIP entry off every resource that is not listed. -/
theorem removalPass_lists (b : Board) (r : Res) : (removalPass owner listed b).1.lists[r] =
    if r ∉ listed then (b.lists[r]).filter fun e => !peerSel owner .cip e else b.lists[r] := by
  rw [removalPass_eq, removeAll_lists]
  exact if_congr (and_iff_right (List.mem_finRange r)) rfl rfl
theorem removalPass_removed (b : Board) (r : Res) :
    r ∈ (removalPass owner listed b).2 ↔ r ∉ listed ∧ (b.find r owner .cip).isSome = true := by
  rw [removalPass_eq, removeAll_removed]
  simp [allRes]
theorem removalPass_free (b : Board) : b.free.length ≤ (removalPass owner listed b).1.free.length := by
  rw [removalPass_eq]
  exact List.foldlRecOn (motive := fun acc : Board × List Res => b.free.length ≤ acc.1.free.length) allRes _ le_rfl
    fun acc h r _ => h.trans (removeAt_free acc r)
theorem removalPass_none {b : Board} (none : ∀ r : Res, b.find r owner .cip = none) : removalPass owner listed b = (b, []) := by
  rw [removalPass_eq]
  refine List.foldlRecOn (motive := fun acc : Board × List Res => acc = (b, [])) allRes _ rfl fun acc h r _ => ?_
  subst h
  exact if_neg fun k => by rw [none r] at k; cases k.2
end

/-! ### The listed pairs (R11 to R13) -/

/-- The board after the removal pass with the resources it removed from; the work of the listed pairs on it; the board in the end. -/
def Announcement.passed (capacity : Vector Nat 16) (a : Announcement) (b : Board) : Board × List Res :=
  if a.role = .cip then removalPass a.owner (resourcesOf (listedPairs capacity a.role [] a.pairs)) b else (b, [])
def Announcement.work (capacity : Vector Nat 16) (a : Announcement) (b : Board) : BoardWork :=
  (listedPairs capacity a.role [] a.pairs).foldl (applyPair a) ⟨(a.passed capacity b).1, [], []⟩
def Announcement.boardAfter (capacity : Vector Nat 16) (a : Announcement) (b : Board) : Board :=
  ((a.work capacity b).board.markIncomplete (a.work capacity b).failed).holdTimers

section
variable {capacity : Vector Nat 16} {a : Announcement} {b : Board}

theorem applyAnnouncement_eq : applyAnnouncement capacity a b =
    ({ a.work capacity b with board := a.boardAfter capacity b }, (a.passed capacity b).2) := rfl

theorem Announcement.boardAfter_lists : (a.boardAfter capacity b).lists = (a.work capacity b).board.lists :=
  (Board.holdTimers_lists _).trans (SameEntries.markIncomplete _ _).lists

/-- A listed resource is not touched by the pass. -/
theorem Announcement.passed_listed {p : Pair} (hp : p ∈ listedPairs capacity a.role [] a.pairs) :
    (a.passed capacity b).1.lists[p.res] = b.lists[p.res] := by
  unfold Announcement.passed
  split
  · rw [removalPass_lists, if_neg (not_not.2 (mem_resourcesOf.2 ⟨p, hp, rfl⟩))]
  · rfl
theorem Announcement.passed_others (r : Res) : ((a.passed capacity b).1.lists[r]).filter (fun e => !peerSel a.owner a.role e)
    = (b.lists[r]).filter fun e => !peerSel a.owner a.role e := by
  unfold Announcement.passed
  split
  · rename_i cip
    rw [removalPass_lists]
    split
    · rw [List.filter_filter, cip]; simp
    · rfl
  · rfl
theorem Announcement.passed_free : b.free.length ≤ (a.passed capacity b).1.free.length := by
  unfold Announcement.passed
  split <;> [exact removalPass_free b; exact le_rfl]
theorem Announcement.passed_flags : SameFlags b (a.passed capacity b).1 := by
  unfold Announcement.passed
  split <;> [exact .removalPass _ _ _; exact .refl b]

/-- The resources of the operation's result are those listed and those left. -/
theorem Announcement.mem_touched {r : Res} :
    r ∈ resourcesOf (listedPairs capacity a.role [] a.pairs) ++ (a.passed capacity b).2 ↔
      (∃ p ∈ listedPairs capacity a.role [] a.pairs, p.res = r) ∨ a.role = .cip ∧ (b.find r a.owner .cip).isSome = true := by
  rw [List.mem_append, mem_resourcesOf]
  unfold Announcement.passed
  by_cases cip : a.role = .cip
  · rw [if_pos cip, removalPass_removed, mem_resourcesOf, and_iff_right cip]
    by_cases named : ∃ p ∈ listedPairs capacity a.role [] a.pairs, p.res = r
    · exact iff_of_true (.inl named) (.inl named)
    · exact or_congr .rfl (and_iff_right named)
  · rw [if_neg cip]; simp [cip]

/-- The failures' flags: those of the listed resources that failed, and the ones before. -/
theorem Announcement.boardAfter_incomplete (r : Res) :
    (a.boardAfter capacity b).incomplete[r] = (decide (r ∈ (a.work capacity b).failed) || b.incomplete[r]) := by
  have flags : (a.work capacity b).board.incomplete = b.incomplete :=
    (SameFlags.applyPairs _ _ _).incomplete.trans Announcement.passed_flags.incomplete
  unfold Announcement.boardAfter
  rw [Board.holdTimers_incomplete, (Board.markIncomplete_get _ _ _).1, flags]
theorem Announcement.boardAfter_timer {r : Res} (failed : r ∈ (a.work capacity b).failed) :
    (a.boardAfter capacity b).incompleteMs[r] = 0 := by
  have set := (Board.markIncomplete_get (a.work capacity b).board (a.work capacity b).failed r).2
  unfold Announcement.boardAfter Board.holdTimers
  split
  · rw [set, if_pos failed]
  · simp

section
variable (one : ∀ r : Res, ∀ x ∈ b.lists[r], ∀ y ∈ b.lists[r],
    peerSel a.owner a.role x = true → peerSel a.owner a.role y = true → x = y)

/-- A resource that is not listed: the pass alone changes it. -/
theorem Announcement.work_off {r : Res} (off : ∀ p ∈ listedPairs capacity a.role [] a.pairs, p.res ≠ r) :
    (a.boardAfter capacity b).lists[r] = (a.passed capacity b).1.lists[r]
      ∧ (a.boardAfter capacity b).incomplete[r] = b.incomplete[r] := by
  have same := foldl_pairs_off (applyPair_local a) off ⟨(a.passed capacity b).1, [], []⟩
  have fine : r ∉ (a.work capacity b).failed := fun k => List.not_mem_nil (same.failed.1 k)
  rw [Announcement.boardAfter_lists, Announcement.boardAfter_incomplete]
  exact ⟨same.lists, by simp [fine]⟩
theorem Announcement.work_left {r : Res} (off : ∀ p ∈ listedPairs capacity a.role [] a.pairs, p.res ≠ r) :
    if a.role = .cip then (a.boardAfter capacity b).find r a.owner .cip = none
      else (a.boardAfter capacity b).lists[r] = b.lists[r] := by
  rw [Board.find_eq, (Announcement.work_off off).1]
  unfold Announcement.passed
  split
  · rw [removalPass_lists, if_pos fun k => by obtain ⟨p, hp, e⟩ := mem_resourcesOf.1 k; exact off p hp e]
    exact find?_filter_not _ _
  · rfl

include one

theorem Announcement.one_at {p : Pair} (hp : p ∈ listedPairs capacity a.role [] a.pairs) {u : BoardWork}
    (first : SameAt p.res ⟨(a.passed capacity b).1, [], []⟩ u) : ∀ x ∈ u.board.lists[p.res], ∀ y ∈ u.board.lists[p.res],
      peerSel a.owner a.role x = true → peerSel a.owner a.role y = true → x = y := by
  rw [first.lists, Announcement.passed_listed hp]
  exact one p.res

/-- Every pair is put on its resource, or fails. -/
theorem Announcement.pair_does {p : Pair} (hp : p ∈ listedPairs capacity a.role [] a.pairs) {u : BoardWork}
    (first : SameAt p.res ⟨(a.passed capacity b).1, [], []⟩ u) : PairDone (peerSel a.owner a.role) p.res u (applyPair a u p) := by
  by_cases room : 7 < u.board.free.length ∨ (u.board.find p.res a.owner a.role).isSome = true
  · obtain ⟨new, puts, -⟩ := applyPair_puts (Announcement.one_at one hp first) room
    exact .inl ⟨new, puts⟩
  · rw [not_or, Bool.not_eq_true, Option.isSome_eq_false_iff, Option.isNone_iff_eq_none] at room
    rw [applyPair_fails room.2 (by omega)]
    exact .inr ⟨rfl, .rfl, room.2⟩

theorem Announcement.work_others (r : Res) :
    ((a.boardAfter capacity b).lists[r]).filter (fun e => decide (¬(e.owner = a.owner ∧ e.role = a.role)))
      = (b.lists[r]).filter fun e => decide (¬(e.owner = a.owner ∧ e.role = a.role)) := by
  have done := foldl_pairs_others (applyPair_local a) (listedPairs_nodup capacity a.role a.pairs [])
    (w := ⟨(a.passed capacity b).1, [], []⟩) (fun p hp u first _ => Announcement.pair_does one hp first) r
  have others := done.trans (Announcement.passed_others r)
  rw [Announcement.boardAfter_lists]
  simp only [peerSel] at others
  simp only [decide_not]
  exact others

/-- The resources that the overcommit check looks at: those on which the owner's entry is new or changed (R21). -/
theorem Announcement.work_changed (r : Res) : r ∈ (a.work capacity b).changed ↔
    (∃ p ∈ listedPairs capacity a.role [] a.pairs, p.res = r) ∧ ∃ e, (a.boardAfter capacity b).find r a.owner a.role = some e
      ∧ e.changedFrom (b.find r a.owner a.role) := by
  have done := foldl_pairs_changed (applyPair_local a) (listedPairs_nodup capacity a.role a.pairs [])
    (w := ⟨(a.passed capacity b).1, [], []⟩) (fun p hp u first _ => Announcement.pair_does one hp first) (r := r) List.not_mem_nil
  refine done.trans (and_congr_right fun ⟨p, hp, e⟩ => ?_)
  subst e
  rw [Board.find_eq, Board.find_eq, Announcement.boardAfter_lists, Announcement.passed_listed hp]
  rfl

/-- A listed resource with room, or with the owner's entry: the entry stands as announced (R11, R12). -/
theorem Announcement.work_puts {p : Pair} (hp : p ∈ listedPairs capacity a.role [] a.pairs)
    (room : 7 + (listedPairs capacity a.role [] a.pairs).length ≤ b.free.length ∨ (b.find p.res a.owner a.role).isSome = true) :
    (a.boardAfter capacity b).incomplete[p.res] = b.incomplete[p.res]
      ∧ ∃ e, (a.boardAfter capacity b).find p.res a.owner a.role = some e ∧ e.state = a.state ∧ e.key = a.key
        ∧ e.demand = (if a.role = .cip then some p.demand else none) ∧ e.life = some a.lifeSet
        ∧ (e.own = false ∨ ∃ x ∈ b.lists[p.res], x.owner = a.owner ∧ e.own = x.own) := by
  obtain ⟨u, first, last, left, -⟩ := foldl_pairs_at (applyPair_local a) (listedPairs_nodup capacity a.role a.pairs [])
    ⟨(a.passed capacity b).1, [], []⟩ hp
  have lists : u.board.lists[p.res] = b.lists[p.res] := first.lists.trans (Announcement.passed_listed hp)
  have free := Announcement.passed_free (capacity := capacity) (a := a) (b := b)
  dsimp only at left
  obtain ⟨new, puts, state, key, demand, life, own⟩ := applyPair_puts (Announcement.one_at one hp first)
    (room.imp (fun k => by omega) fun k => by rwa [Board.find_eq, lists])
  have fine : p.res ∉ (a.work capacity b).failed := fun k => by
    have := last.failed.1 k
    rw [puts.failed, first.failed] at this
    exact List.not_mem_nil this
  rw [lists] at own
  rw [Announcement.boardAfter_incomplete, Board.find_eq, Announcement.boardAfter_lists]
  refine ⟨by simp [fine], new, ?_, state, key, demand, life, own⟩
  exact (congrArg (List.find? _) last.lists).trans puts.puts.found
end

/-- Without room and without an entry of the owner every listed pair fails (R13). -/
theorem Announcement.work_fails (full : b.free.length ≤ 7) (none : ∀ r : Res, b.find r a.owner a.role = none) :
    (a.boardAfter capacity b).lists = b.lists
      ∧ ∀ p ∈ listedPairs capacity a.role [] a.pairs, p.res ∈ (a.work capacity b).failed := by
  have passed : (a.passed capacity b).1 = b := by
    unfold Announcement.passed
    split
    · rename_i cip; rw [removalPass_none fun r => by rw [← cip]; exact none r]
    · rfl
  have fails (p) (hp : p ∈ listedPairs capacity a.role [] a.pairs) :
      (a.work capacity b).board.lists[p.res] = b.lists[p.res] ∧ p.res ∈ (a.work capacity b).failed := by
    obtain ⟨u, first, last, -, less⟩ := foldl_pairs_at (applyPair_local a) (listedPairs_nodup capacity a.role a.pairs [])
      ⟨(a.passed capacity b).1, [], []⟩ hp
    dsimp only at less
    have lists : u.board.lists[p.res] = b.lists[p.res] := first.lists.trans (by rw [passed])
    have form := applyPair_fails (a := a) (w := u) (p := p) (by rw [Board.find_eq, lists]; exact none _) (by rw [passed] at less; omega)
    rw [form] at last
    exact ⟨last.lists.trans lists, last.failed.2 (List.mem_append_right _ List.mem_cons_self)⟩
  have same (r : Res) : (a.boardAfter capacity b).lists[r] = b.lists[r] := by
    by_cases named : ∃ p ∈ listedPairs capacity a.role [] a.pairs, p.res = r
    · obtain ⟨p, hp, rfl⟩ := named
      rw [Announcement.boardAfter_lists]
      exact (fails p hp).1
    · rw [(Announcement.work_off fun p hp e => named ⟨p, hp, e⟩).1, passed]
  exact ⟨Vector.ext fun i hi => same ⟨i, hi⟩, fun p hp => (fails p hp).2⟩
end

/-! ### The operation on the whole node -/

section
variable (s : State) (a : Announcement)

/-- The node with the announcement's board, its failures' flag and its overcommit check (R13, R21). -/
def State.announced : State :=
  ((s.onBoard fun _ => a.boardAfter s.settings.capacity s.board).stickyIf
      (decide ((a.work s.settings.capacity s.board).failed ≠ [])) .viewIncomplete).stickyIf
    (overcommitted s.settings.capacity (a.boardAfter s.settings.capacity s.board) (a.work s.settings.capacity s.board).changed)
    .overcommit

/-- The resources of the announcement's result: those listed and those left. -/
def State.touchedBy : List Res :=
  resourcesOf (listedPairs s.settings.capacity a.role [] a.pairs) ++ (a.passed s.settings.capacity s.board).2

variable {s a}

theorem State.carryAnnouncement_of (taken : a.discarded s.settings.node = false) :
    s.carryAnnouncement a = (s.announced a).dequeue.hallResult (s.touchedBy a) :=
  if_neg (by rw [taken]; decide)

theorem Untouched.announced : Untouched [.board, .log] s (s.announced a) :=
  ((Untouched.onBoard s _).mono (by decide)).trans
    (((Untouched.stickyIf _ _ _).mono (by decide)).trans ((Untouched.stickyIf _ _ _).mono (by decide)))

theorem State.stickyIf_board (x : State) (c : Bool) (f : Sticky) : (x.stickyIf c f).board = x.board :=
  (Untouched.stickyIf x c f).board (by decide)
theorem State.stickyIf_flag_other (x : State) (c : Bool) {f g : Sticky} (h : f ≠ g) : (x.stickyIf c f).flag g = x.flag g := by
  cases c
  · rfl
  · show (x.log.setFlag f).isSet g = x.log.isSet g
    simp [Log.isSet_setFlag, h]

theorem State.announced_board : (s.announced a).board = a.boardAfter s.settings.capacity s.board := by
  unfold State.announced
  rw [State.stickyIf_board, State.stickyIf_board]
  rfl
theorem State.announced_overcommit : (s.announced a).flag .overcommit = true ↔ s.flag .overcommit = true ∨
    ∃ r ∈ (a.work s.settings.capacity s.board).changed,
      overfull s.settings.capacity[r] (a.boardAfter s.settings.capacity s.board).lists[r] := by
  unfold State.announced
  rw [State.stickyIf_flag, overcommitted_iff, State.stickyIf_flag_other _ _ (by decide)]
  rfl
theorem State.announced_viewIncomplete (failed : (a.work s.settings.capacity s.board).failed ≠ []) :
    (s.announced a).flag .viewIncomplete = true := by
  unfold State.announced
  rw [State.stickyIf_flag_other _ _ (by decide), State.stickyIf_flag]
  exact .inr (decide_eq_true failed)

/-- The verdict of an operation of the hall is acted on by a run that stands. -/
theorem State.RunStands.hallActed {v : State} (run : s.RunStands) (k : Untouched [.board, .log] s v) (touched) :
    VerdictActed s (v.dequeue.hallResult touched).finish (verdictFor s.settings.capacity v.board touched) := by
  have same : Untouched [.board, .updates, .log] s v.dequeue :=
    (k.mono (by decide)).trans ((Untouched.dequeue v).mono (by decide))
  have stands : v.dequeue.RunStands :=
    run.congr (same.seq (by decide)) (by rw [same.adm (by decide)]) (by rw [same.adm (by decide)])
  have acted := (stands.hallResult touched).finish.congr (s := s) (same.seq (by decide)) (by rw [same.adm (by decide)])
    (same.settings (by decide)) (same.store (by decide))
  rwa [same.settings (by decide), (Untouched.dequeue v).board (by decide)] at acted

/-- The owner of an announcement that R10 does not discard has one entry of its role on a list, and it is not own. -/
theorem State.Ranked.peer_unique (h : s.Ranked) (r : Res) : ∀ x ∈ s.board.lists[r], ∀ y ∈ s.board.lists[r],
    peerSel a.owner a.role x = true → peerSel a.owner a.role y = true → x = y := by
  intro x hx y hy kx ky
  obtain ⟨ox, rx⟩ := (of_decide_eq_true kx : x.owner = a.owner ∧ x.role = a.role)
  obtain ⟨oy, ry⟩ := (of_decide_eq_true ky : y.owner = a.owner ∧ y.role = a.role)
  exact (h.orderly.ranked r).unique hx hy (ox.trans oy.symm) (rx.trans ry.symm)

/-- R10's conditions for discarding an announcement whole. -/
theorem Announcement.discarded_iff {node : Nat} : a.discarded node = true ↔ a.owner = 0 ∨ a.owner = node
    ∨ a.state = .held ∧ 63 < a.key ∨ a.state ≠ .held ∧ a.key < 65 ∨ a.life = 0 ∨ a.pairs = [] := by
  simp only [Announcement.discarded, Bool.or_eq_true, decide_eq_true_eq, or_assoc]
end

end Sys2Proof.Machine

open Sys2Proof Sys2Proof.Machine

/-- Settles O25: the pass and the listed pairs, each on its own resource, then the result. -/
theorem announcementsUpdateTheBoard : Obligations.AnnouncementsUpdateTheBoard := by
  intro c s a rest listed hc head ranked _ hl
  have run : exec c s = done (s.carryAnnouncement a) := by
    rcases hc with ⟨rfl, role⟩ | ⟨rfl, role⟩ <;>
    · show done _ = _
      rw [head]
      exact congrArg done (if_pos role)
  by_cases skip : a.discarded s.settings.node = true
  · have form : s.carryAnnouncement a = s.dequeue.hallResult (namedResources a.pairs) := if_pos skip
    have k := HallDone.of_head (touched := namedResources a.pairs) (.refl _ s) head
    rw [form] at run
    refine ⟨_, run, k.frame, k.queue, fun none => ⟨(k.idle none).1.mono (by decide), (k.idle none).2⟩, by rw [k.board], ?_⟩
    rw [if_pos (Announcement.discarded_iff.1 skip)]
    exact ⟨k.board, k.overcommit⟩
  · have taken : a.discarded s.settings.node = false := (Bool.not_eq_true _).mp skip
    have k := HallDone.of_head (touched := s.touchedBy a) (Untouched.announced (a := a)) head
    have one := ranked.peer_unique (a := a)
    have board := k.board.trans State.announced_board
    rw [State.carryAnnouncement_of taken] at run
    subst hl
    refine ⟨_, run, k.frame, k.queue, fun none => ⟨?_, (k.idle none).2⟩, ?_, ?_⟩
    · exact (Untouched.announced.mono (by decide)).trans ((k.idle none).1.mono (by decide))
    · rw [board]; exact applyAnnouncement_inhibit _ _ _
    rw [if_neg fun c => skip (Announcement.discarded_iff.2 c)]
    refine ⟨?_, fun r => ?_, fun r off => ⟨?_, ?_⟩, fun p hp room => ?_, fun full none => ?_, fun touched same => ⟨fun stands => ?_, ?_⟩⟩
    · rw [k.overcommit, State.announced_overcommit, board]
      refine or_congr .rfl ⟨fun ⟨r, changed, full⟩ => ?_, fun ⟨p, hp, e, found, changed, full⟩ => ?_⟩
      · obtain ⟨⟨p, hp, rfl⟩, e, found, changed⟩ := (Announcement.work_changed one r).1 changed
        exact ⟨p, hp, e, found, changed, full⟩
      · exact ⟨p.res, (Announcement.work_changed one _).2 ⟨⟨p, hp, rfl⟩, e, found, changed⟩, full⟩
    · rw [board]; exact Announcement.work_others one r
    · rw [board]; exact Announcement.work_left off
    · rw [board]; exact (Announcement.work_off off).2
    · rw [board]
      obtain ⟨flag, e, found, state, key, demand, life, own⟩ := Announcement.work_puts one hp room
      refine ⟨flag, e, found, state, key, ?_, demand, life⟩
      refine own.elim id fun ⟨x, hx, owner, own⟩ => ?_
      rw [own]
      refine (Bool.not_eq_true _).mp fun k => (Announcement.taken_of taken).owner.2 ?_
      rw [← owner, (ranked.orderly.own_iff hx).1 k]
    · obtain ⟨lists, failed⟩ := Announcement.work_fails (capacity := s.settings.capacity) full none
      refine ⟨by rw [board]; exact lists, fun p hp => ⟨?_, ?_⟩, fun some => k.flags _ (State.announced_viewIncomplete ?_)⟩
      · rw [board, Announcement.boardAfter_incomplete]; simp [failed p hp]
      · rw [board]; exact Announcement.boardAfter_timer (failed p hp)
      · obtain ⟨p, hp⟩ := List.exists_mem_of_ne_nil _ some
        exact List.ne_nil_of_mem (failed p hp)
    · have acted := stands.hallActed (Untouched.announced (a := a)) (s.touchedBy a)
      rw [State.announced_board] at acted
      rw [board, verdictFor_congr _ _ fun r => (same r).trans Announcement.mem_touched.symm]
      exact acted
    · rintro own can ⟨p, hp, touches⟩
      exact k.asks own can ⟨p, hp, Announcement.mem_touched.2 ((same _).1 touches)⟩

end

section
/-! The grant under which a claimed step runs (R34, R75, R78 to R80, R86): what of the state it rests on, what each operation of the
round and of the admission unit makes of that, and that every command keeps it. -/

namespace Sys2Proof.Machine

/-! ### What the grant rests on -/

/-- The round state, the claims of the current step, the attempt's tag, the own step with its standing request, and whether the node
is on the line. -/
structure GrantView where
  round : RoundState
  pairs : List Pair
  tag : Nat
  own : OwnState
  standing : Option Standing
  line : Bool

/-- The part of a state that the grant rests on. -/
def State.grantView (s : State) : GrantView :=
  ⟨s.seq.state, s.curStep.pairs, s.seq.tag, s.adm.own, s.adm.standing, s.onLine⟩

/-- The standing request carries the tag of the current attempt (R75). -/
def GrantView.tagged (v : GrantView) : Bool :=
  match v.standing with
  | some st => st.tag == v.tag
  | none => false

/-- The own step has a request behind it, and is NONE off the line. -/
structure GrantView.Backed (v : GrantView) : Prop where
  standing : v.own ≠ .none → v.standing ≠ none
  offLine : v.line = false → v.own = .none

/-- The round needs no grant: it does not claim, and runs at most a step without claims. -/
structure GrantView.Free (v : GrantView) : Prop where
  claiming : v.round ≠ .claiming
  running : v.round = .running → v.pairs = []

/-- A round that claims, or runs a claimed step, does so for the standing request. -/
structure GrantView.Tied (v : GrantView) : Prop where
  claiming : v.round = .claiming → v.tagged = true
  running : v.round = .running → v.pairs ≠ [] → v.tagged = true

/-- A round that claims or runs a claimed step has an own step that does so for it. -/
structure GrantView.Granted (v : GrantView) : Prop where
  tied : v.Tied
  claiming : v.round = .claiming → v.own = .claiming ∨ v.own = .runPending ∨ v.own = .running
  running : v.round = .running → v.pairs ≠ [] → v.own = .running
  backed : v.Backed

/-- The own step is backed and the round needs no grant. -/
structure GrantView.Settled (v : GrantView) : Prop where
  backed : v.Backed
  free : v.Free

theorem GrantView.Free.tied {v : GrantView} (h : v.Free) : v.Tied :=
  ⟨fun k => absurd k h.claiming, fun k n => absurd (h.running k) n⟩
theorem GrantView.Settled.granted {v : GrantView} (h : v.Settled) : v.Granted :=
  ⟨h.free.tied, fun k => absurd k h.free.claiming, fun k n => absurd (h.free.running k) n, h.backed⟩
/-- Without a part in the hall the own step is backed. -/
theorem GrantView.Backed.of_none {v : GrantView} (h : v.own = .none) : v.Backed := ⟨fun k => absurd h k, fun _ => h⟩
/-- A backed own step that is not NONE is on the line. -/
theorem GrantView.Backed.line {v : GrantView} (h : v.Backed) (own : v.own ≠ .none) : v.line = true := by
  cases k : v.line with
  | true => rfl
  | false => exact absurd (h.offLine k) own

theorem State.tagged_grantView (s : State) : s.grantView.tagged = s.tagCurrent := rfl
theorem State.tagStands_iff (s : State) : s.TagStands ↔ s.grantView.tagged = true := by
  unfold State.TagStands GrantView.tagged State.grantView
  cases s.adm.standing <;> simp

theorem State.granted_iff (s : State) : s.Granted ↔ s.grantView.Granted := by
  constructor
  · rintro ⟨run, claim, stand, off⟩
    exact ⟨⟨fun k => s.tagStands_iff.1 (claim k).2, fun k n => s.tagStands_iff.1 (run k n).2⟩, fun k => (claim k).1,
      fun k n => (run k n).1, stand, off⟩
  · rintro ⟨⟨t1, t2⟩, claim, run, ⟨stand, off⟩⟩
    exact ⟨fun k n => ⟨run k n, s.tagStands_iff.2 (t2 k n)⟩, fun k => ⟨claim k, s.tagStands_iff.2 (t1 k)⟩, stand, off⟩

/-! ### What leaves it as it is -/

theorem State.grantView_congr {s t : State} (store : t.store = s.store) (seq : t.seq = s.seq) (own : t.adm.own = s.adm.own)
    (standing : t.adm.standing = s.adm.standing) (link : t.link.state = s.link.state) : t.grantView = s.grantView := by
  have step : t.curStep = s.curStep := State.curStep_congr store (by rw [seq]) (by rw [seq])
  unfold State.grantView State.onLine
  rw [step, seq, own, standing, link]

/-- An operation that reaches at most the update queue, the admission unit, the slots and the log, the own step apart. -/
theorem Untouched.grantView {s t : State} (h : Untouched [.board, .updates, .adm, .ver, .port, .tx, .log] s t)
    (own : t.adm.own = s.adm.own) (standing : t.adm.standing = s.adm.standing) : t.grantView = s.grantView :=
  State.grantView_congr (h.store (by decide)) (h.seq (by decide)) own standing (by rw [h.link (by decide)])

section
variable (s : State)
theorem State.grantView_onVer (f) : (s.onVer f).grantView = s.grantView := rfl
theorem State.grantView_onLog (f) : (s.onLog f).grantView = s.grantView := rfl
theorem State.grantView_placeOwn (c) : (s.placeOwn c).grantView = s.grantView := rfl
/-- A change of the admission unit that leaves the own step and the standing request. -/
theorem State.grantView_onAdm (f : Admission → Admission) (own : (f s.adm).own = s.adm.own)
    (standing : (f s.adm).standing = s.adm.standing) : (s.onAdm f).grantView = s.grantView :=
  State.grantView_congr rfl rfl own standing rfl
/-- A change of the sequencer that leaves the round state, the current step and the tag. -/
theorem State.grantView_onSeq (f : Sequencer → Sequencer) (state : (f s.seq).state = s.seq.state) (slot : (f s.seq).slot = s.seq.slot)
    (pointer : (f s.seq).pointer = s.seq.pointer) (tag : (f s.seq).tag = s.seq.tag) : (s.onSeq f).grantView = s.grantView := by
  have step : (s.onSeq f).curStep = s.curStep := State.curStep_congr rfl slot pointer
  unfold State.grantView
  rw [step, State.onSeq_seq, state, tag]
  rfl
theorem State.grantView_placeOp (o) : (s.placeOp o).grantView = s.grantView :=
  ((Untouched.placeOp s o).mono (by decide)).grantView (s.placeOp_own o) (s.placeOp_standing o)
theorem State.grantView_opDone : s.opDone.grantView = s.grantView :=
  ((Untouched.opDone s).mono (by decide)).grantView s.opDone_step.own s.opDone_step.standing
theorem State.grantView_enqueue (o) : (s.enqueue o).grantView = s.grantView :=
  ((Untouched.enqueue s o).mono (by decide)).grantView (by rw [State.enqueue_adm]) (by rw [State.enqueue_adm])
theorem State.grantView_dequeue : s.dequeue.grantView = s.grantView :=
  ((Untouched.dequeue s).mono (by decide)).grantView (by rw [State.dequeue_adm]) (by rw [State.dequeue_adm])
theorem State.grantView_requestEval (b) : (s.requestEval b).grantView = s.grantView :=
  ((Untouched.requestEval s b).mono (by decide)).grantView (s.requestEval_step b).own (s.requestEval_step b).standing
theorem State.grantView_stickyIf (c f) : (s.stickyIf c f).grantView = s.grantView := by
  unfold State.stickyIf; split <;> rfl
theorem State.grantView_takeRecord : s.takeRecord.grantView = s.grantView := by
  unfold State.takeRecord
  split
  · rfl
  split
  · rfl
  split <;> rfl
theorem State.grantView_endAttempt (o) : (s.endAttempt o).grantView = s.grantView := by
  unfold State.endAttempt; split <;> rfl
theorem State.grantView_haltAttempt (o) : (s.haltAttempt o).grantView = s.grantView := s.grantView_endAttempt o
theorem State.grantView_judgeHolds : s.judgeHolds.grantView = s.grantView := by
  have step := s.judgeHolds_log.2.2.2.2
  exact (s.judgeHolds_spec.2.1.mono (by decide)).grantView step.own step.standing
theorem State.grantView_dropHold (i) : (s.dropHold i).grantView = s.grantView := by
  unfold State.dropHold
  split
  · split
    · exact s.grantView_placeOp _
    · rfl
  · rfl
theorem State.grantView_dropHolds : (allFour.foldl State.dropHold s).grantView = s.grantView :=
  List.foldlRecOn (motive := fun t : State => t.grantView = s.grantView) allFour State.dropHold rfl
    fun t h i _ => (t.grantView_dropHold i).trans h
theorem State.grantView_emptyProducts : (allFour.foldl (fun s i => s.placeProduct i none) s).grantView = s.grantView :=
  List.foldlRecOn (motive := fun t : State => t.grantView = s.grantView) allFour _ rfl fun _ h _ _ => h
theorem State.grantView_finish : s.finish.grantView = s.grantView :=
  State.grantView_congr s.finish_store s.finish_seq (by rw [s.finish_adm]) (by rw [s.finish_adm]) s.finish_linkState
theorem State.grantView_tick : s.tick.grantView = s.grantView := by
  unfold State.tick; split <;> rfl

/-! ### What changes it -/

theorem State.grantView_setRound (r) : (s.setRound r).grantView = { s.grantView with round := r } := by
  unfold State.setRound
  split
  · rename_i h; rw [← h]; rfl
  · rfl
theorem State.grantView_enter (o) : (s.onAdm (Admission.enter o)).grantView = { s.grantView with own := o } := rfl
theorem State.grantView_enterRunning : s.enterRunning.grantView = { s.grantView with round := .running } :=
  State.grantView_setRound _ _
theorem State.grantView_restartAttempt : s.restartAttempt.grantView = { s.grantView with round := .waiting } :=
  State.grantView_setRound _ _
end

/-- A WAITING report takes a round of the current attempt from CLAIMING and RUNNING to WAITING (R78). -/
def GrantView.waitingReport (v : GrantView) : GrantView :=
  if v.tagged = true ∧ (v.round = .claiming ∨ v.round = .running) then { v with round := .waiting } else v

theorem State.grantView_reportWaiting (s : State) : s.reportWaiting.grantView = s.grantView.waitingReport := by
  unfold State.reportWaiting GrantView.waitingReport
  rw [State.tagged_grantView]
  by_cases tag : s.tagCurrent = true
  · rw [if_pos tag]
    split
    · rename_i h; rw [if_pos ⟨tag, .inl h⟩, State.grantView_setRound]
    · rename_i h; rw [if_pos ⟨tag, .inr h⟩, State.grantView_restartAttempt]
    · rename_i h1 h2; exact (if_neg fun k => k.2.elim h1 h2).symm
  · rw [if_neg tag, if_neg fun k => tag k.1]

/-- A CLAIMING report takes a round of the current attempt from WAITING to CLAIMING (R78). -/
def GrantView.claimingReport (v : GrantView) : GrantView :=
  if v.tagged = true ∧ v.round = .waiting then { v with round := .claiming } else v

theorem State.grantView_reportClaiming (s : State) : s.reportClaiming.grantView = s.grantView.claimingReport := by
  unfold State.reportClaiming GrantView.claimingReport
  rw [State.tagged_grantView]
  by_cases tag : s.tagCurrent = true
  · rw [if_pos tag]
    split
    · rename_i h; rw [if_pos ⟨tag, h⟩, State.grantView_setRound]
    · rename_i h; exact (if_neg fun k => h k.2).symm
  · rw [if_neg tag, if_neg fun k => tag k.1]

/-- A RUNNING report takes a round of the current attempt from WAITING and CLAIMING to RUNNING (R78). -/
def GrantView.runningReport (v : GrantView) : GrantView :=
  if v.tagged = true ∧ (v.round = .waiting ∨ v.round = .claiming) then { v with round := .running } else v

theorem State.grantView_reportRunning (s : State) : s.reportRunning.grantView = s.grantView.runningReport := by
  unfold State.reportRunning GrantView.runningReport
  rw [State.tagged_grantView]
  by_cases tag : s.tagCurrent = true
  · rw [if_pos tag]
    split
    · rename_i h; rw [if_pos ⟨tag, .inl h⟩, State.grantView_enterRunning]
    · rename_i h; rw [if_pos ⟨tag, .inr h⟩, State.grantView_enterRunning]
    · rename_i h1 h2; exact (if_neg fun k => k.2.elim h1 h2).symm
  · rw [if_neg tag, if_neg fun k => tag k.1]

section
variable {v : GrantView}

/-- A step that waits, of a round that claimed or runs at most a step without claims. -/
theorem GrantView.Backed.settled_waiting (h : v.Backed) (tie : v.Tied) (run : v.round = .running → v.pairs = []) :
    v.waitingReport.Settled := by
  unfold GrantView.waitingReport
  split
  · exact ⟨⟨h.standing, h.offLine⟩, nofun, nofun⟩
  · rename_i n
    exact ⟨h, fun k => n ⟨tie.claiming k, .inl k⟩, run⟩
theorem GrantView.Settled.waitingReport (h : v.Settled) : v.waitingReport.Settled :=
  h.backed.settled_waiting h.free.tied h.free.running

/-- A CLAIMING report where the own step claims. -/
theorem GrantView.Granted.claimingReport (h : v.Granted) (own : v.own = .claiming ∨ v.own = .runPending) :
    v.claimingReport.Granted := by
  unfold GrantView.claimingReport
  split
  · rename_i k
    exact ⟨⟨fun _ => k.1, nofun⟩, fun _ => own.imp_right .inl, nofun, h.backed.standing, h.backed.offLine⟩
  · exact h
/-- A RUNNING report where the own step runs. -/
theorem GrantView.Granted.runningReport (h : v.Granted) (own : v.own = .running) : v.runningReport.Granted := by
  unfold GrantView.runningReport
  split
  · rename_i k
    exact ⟨⟨nofun, fun _ _ => k.1⟩, nofun, fun _ _ => own, h.backed.standing, h.backed.offLine⟩
  · exact h
end

/-! ### Requests of the round sequencer -/

section
variable {s : State}

/-- A release leaves no request and no own step (R46). -/
theorem State.grantView_releaseRequest (h : s.grantView.Backed) :
    s.releaseRequest.grantView = { s.grantView with own := .none, standing := none } := by
  unfold State.releaseRequest
  cases stands : s.adm.standing with
  | none =>
    have own : s.adm.own = .none := by
      by_contra k
      exact h.standing k stands
    unfold State.grantView
    dsimp only
    rw [own, stands]
  | some st =>
    dsimp only
    split
    · rename_i own
      show (⟨_, _, _, s.adm.own, _, _⟩ : GrantView) = _
      rw [own]; rfl
    · have removed := (s.onAdm fun a => { a with standing := none, framePlaced := false }).grantView_placeOp
        (.ownRemove .cip (resourcesOf st.pairs))
      generalize (s.onAdm fun a => { a with standing := none, framePlaced := false }).placeOp _ = u at *
      have : (u.onAdm (Admission.enter .none)).grantView = { s.grantView with own := .none, standing := none } := by
        rw [State.grantView_enter, removed]; rfl
      split <;> exact this

theorem GrantView.Backed.releaseRequest (h : s.grantView.Backed) : s.releaseRequest.grantView.Backed := by
  rw [State.grantView_releaseRequest h]; exact .of_none rfl
theorem GrantView.Backed.releaseIfClaims (h : s.grantView.Backed) : s.releaseIfClaims.grantView.Backed := by
  unfold State.releaseIfClaims; split <;> [exact h; exact h.releaseRequest]
/-- A release leaves the round as it is. -/
theorem State.releaseIfClaims_free (h : s.grantView.Backed) (free : s.grantView.Free) : s.releaseIfClaims.grantView.Free := by
  unfold State.releaseIfClaims
  split
  · exact free
  · rw [State.grantView_releaseRequest h]; exact ⟨free.claiming, free.running⟩

/-- A request stands, and no own step until it is taken (R35). -/
theorem State.grantView_receiveRequest (h : s.grantView.Backed) (pairs tag) :
    (s.receiveRequest pairs tag).grantView = { s.grantView with own := .none, standing := some ⟨pairs, tag⟩ } := by
  unfold State.receiveRequest
  dsimp only
  split
  · rename_i own
    show (⟨_, _, _, s.adm.own, _, _⟩ : GrantView) = _
    rw [own]; rfl
  · have released := State.grantView_releaseRequest h
    generalize s.releaseRequest = u at *
    have : (u.onAdm fun a => { a with
        standing := some ⟨pairs, tag⟩, framePlaced := false, urgency := s.baseUrgency, aging := 0 }).grantView
        = { u.grantView with standing := some ⟨pairs, tag⟩ } := rfl
    rw [this, released]

/-- A chain request in RUNNING keeps the grant for the new attempt (R47). -/
theorem State.grantView_chainRequest (own : s.adm.own = .running) (pairs tag) :
    (s.chainRequest pairs tag).grantView = { s.grantView with standing := some ⟨pairs, tag⟩ }.runningReport := by
  unfold State.chainRequest
  dsimp only
  rw [if_pos own, State.grantView_reportRunning]
  refine congrArg GrantView.runningReport ?_
  exact State.grantView_placeOp _ _

/-- A request taken on the line has the own step wait (R35). -/
theorem GrantView.Settled.takeRequest (h : s.grantView.Settled) : s.takeRequest.grantView.Settled := by
  unfold State.takeRequest
  cases stands : s.adm.standing with
  | none => exact h
  | some st =>
    dsimp only
    split
    · rename_i k
      rw [State.grantView_requestEval, State.grantView_reportWaiting, State.grantView_enter, State.grantView_placeOp]
      refine GrantView.Settled.waitingReport ⟨⟨fun _ => ?_, fun off => ?_⟩, h.free.claiming, h.free.running⟩
      · show s.adm.standing ≠ none
        rw [stands]; exact nofun
      · exact absurd (k.2.symm.trans off) nofun
    · exact h
end

/-! ### Rounds -/

section
variable {s : State}

theorem GrantView.Backed.setRound (h : s.grantView.Backed) (r) : (s.setRound r).grantView.Backed := by
  rw [State.grantView_setRound]; exact ⟨h.standing, h.offLine⟩
/-- In a round state that neither claims nor runs no grant is needed. -/
theorem GrantView.Backed.settled_round (h : s.grantView.Backed) {r : RoundState} (h1 : r ≠ .claiming) (h2 : r ≠ .running) :
    (s.setRound r).grantView.Settled := by
  refine ⟨h.setRound r, ?_, ?_⟩ <;> rw [State.grantView_setRound]
  · exact h1
  · exact fun k => absurd k h2
theorem GrantView.Backed.openAttempt (h : s.grantView.Backed) (i) : (s.openAttempt i).grantView.Backed := ⟨h.standing, h.offLine⟩

theorem GrantView.Backed.proceed (h : s.grantView.Backed) : s.proceed.grantView.Settled := by
  unfold State.proceed
  split
  · rename_i claimless
    rw [State.grantView_enterRunning]
    exact ⟨⟨h.standing, h.offLine⟩, nofun, fun _ => claimless⟩
  · refine (GrantView.Backed.settled_round ?_ (by decide) (by decide)).takeRequest
    rw [State.grantView_receiveRequest h]
    exact .of_none rfl
theorem GrantView.Backed.enterStep (h : s.grantView.Backed) (i c) : (s.enterStep i c).grantView.Settled := by
  unfold State.enterStep
  dsimp only
  split
  · exact (h.openAttempt i).settled_round (by decide) (by decide)
  · exact (h.openAttempt i).proceed
theorem GrantView.Settled.takePending (h : s.grantView.Settled) : s.takePending.grantView.Settled := by
  unfold State.takePending
  split
  · split
    · exact h
    · refine GrantView.Backed.enterStep ?_ 0 false
      exact ⟨h.backed.standing, h.backed.offLine⟩
  · exact h
theorem GrantView.Settled.recordTaken (h : s.grantView.Settled) : s.recordTaken.grantView.Settled := by
  unfold State.recordTaken
  split
  · exact (h.backed.settled_round (by decide) (by decide)).takePending
  · exact h
theorem GrantView.Backed.closeRound (h : s.grantView.Backed) (o) : (s.closeRound o).grantView.Settled := by
  have released := h.releaseIfClaims
  unfold State.closeRound
  dsimp only
  generalize s.releaseIfClaims = u at *
  refine GrantView.Settled.recordTaken ?_
  rw [State.grantView_takeRecord]
  refine GrantView.Backed.settled_round ?_ (by decide) (by decide)
  unfold State.completeRecord
  rw [State.grantView_onLog, State.grantView_onVer, State.grantView_onSeq _ _ rfl rfl rfl rfl]
  exact released
theorem GrantView.Backed.suspend (h : s.grantView.Backed) (c) : (s.suspend c).grantView.Settled := by
  unfold State.suspend State.enterSuspended
  refine GrantView.Backed.settled_round (s := State.onSeq _ _) ?_ (by decide) (by decide)
  have halted : (s.haltAttempt c.outcome).grantView.Backed := by rw [State.grantView_haltAttempt]; exact h
  exact halted.releaseIfClaims
end

section
variable {s : State} (h : s.grantView.Granted)
include h

theorem GrantView.Granted.takePending : s.takePending.grantView.Granted := by
  by_cases idle : s.seq.state = .idle
  · have : s.grantView.Free := ⟨fun k => absurd (idle.symm.trans k) nofun, fun k => absurd (idle.symm.trans k) nofun⟩
    exact (GrantView.Settled.takePending ⟨h.backed, this⟩).granted
  · unfold State.takePending
    rwa [if_neg idle]
theorem GrantView.Granted.roundRequest (i e) : (s.roundRequest i e).grantView.Granted := by
  unfold State.roundRequest
  split
  · exact h
  · exact GrantView.Granted.takePending (s := s.onSeq _) h
theorem GrantView.Granted.cutRound (o) : (s.cutRound o).grantView.Granted := by
  unfold State.cutRound
  split
  · refine (GrantView.Backed.closeRound ?_ o).granted
    rw [State.grantView_endAttempt]; exact h.backed
  · exact h
theorem GrantView.Granted.resumeRound (c) : (s.resumeRound c).grantView.Granted := by
  unfold State.resumeRound
  split
  · exact (GrantView.Backed.enterStep (s := s.onSeq _) ⟨h.backed.standing, h.backed.offLine⟩ _ c).granted
  · exact h
theorem GrantView.Granted.suspend (c) : (s.suspend c).grantView.Granted := (h.backed.suspend c).granted

/-- A chained step runs on under the grant of the step before it (R47, R86). -/
theorem GrantView.Granted.enterChained (own : s.adm.own = .running) (i) : (s.enterChained i).grantView.Granted := by
  unfold State.enterChained
  dsimp only
  have opened : (((s.openAttempt i).onSeq fun q => { q with stepTimer := .from 0 }).onVer Verifier.runningInBurst).grantView =
      { s.grantView with pairs := (s.stepAt i).pairs, tag := (s.seq.tag + 1) % 256 } := rfl
  have own' : (((s.openAttempt i).onSeq fun q => { q with stepTimer := .from 0 }).onVer Verifier.runningInBurst).adm.own =
      .running := own
  have tag : (s.openAttempt i).seq.tag = (s.seq.tag + 1) % 256 := rfl
  generalize ((s.openAttempt i).onSeq fun q => { q with stepTimer := .from 0 }).onVer Verifier.runningInBurst = u at *
  rw [State.grantView_chainRequest own', opened, tag]
  refine GrantView.Granted.runningReport ?_ own
  have tagged : ({ s.grantView with
      pairs := (s.stepAt i).pairs, tag := (s.seq.tag + 1) % 256
      standing := some ⟨(s.openAttempt i).curStep.pairs, (s.seq.tag + 1) % 256⟩ } : GrantView).tagged = true :=
    beq_self_eq_true _
  exact ⟨⟨fun _ => tagged, fun _ _ => tagged⟩, fun _ => .inr (.inr own), fun _ _ => own, fun _ => nofun, h.backed.offLine⟩

theorem GrantView.Granted.attemptDone (running : s.seq.state = .running) : s.attemptDone.grantView.Granted := by
  unfold State.attemptDone
  dsimp only
  have ended : (((s.endAttempt .done).stickyIf s.curStep.mark .stepMark).onSeq fun q =>
      { q with stepTimer := .stopped }).grantView = s.grantView :=
    (State.grantView_stickyIf _ _ _).trans (s.grantView_endAttempt _)
  generalize ((s.endAttempt .done).stickyIf s.curStep.mark .stepMark).onSeq _ = u at *
  have granted : u.grantView.Granted := ended ▸ h
  split
  · exact (granted.backed.closeRound _).granted
  split
  · rename_i chained
    refine granted.enterChained (granted.running ?_ chained.2) _
    rw [ended]; exact running
  · exact (granted.backed.releaseIfClaims.enterStep _ _).granted
theorem GrantView.Granted.burstComplete : s.burstComplete.grantView.Granted := by
  unfold State.burstComplete
  split
  · rename_i running
    split
    · dsimp only
      split <;> exact h
    · exact GrantView.Granted.attemptDone (s := s.onVer _) h running.1
  · exact h
theorem GrantView.Granted.sensorLostReport : s.sensorLostReport.grantView.Granted := by
  unfold State.sensorLostReport; split <;> [exact h.suspend _; exact h]
theorem GrantView.Granted.takeSample (x) : (s.takeSample x).grantView.Granted := by
  unfold State.takeSample
  dsimp only
  generalize s.ver.takeSample _ _ _ _ x = e
  have noted : ((s.onVer fun _ => e.ver).stickyIf e.sensorAbsent .sensorAbsent).grantView.Granted := by
    rw [State.grantView_stickyIf]; exact h
  split
  · exact noted
  · exact noted.burstComplete
  · exact noted.sensorLostReport
end

/-! ### The own step -/

section
variable {s : State}

theorem State.grantView_placeAnnounce (s : State) (st life) : (s.placeAnnounce st life).grantView = s.grantView := rfl
theorem State.grantView_updateOwn (s : State) (e) : (s.updateOwn e).grantView = s.grantView := s.grantView_placeOp _

/-- A step that has a request behind it may wait, and a round tied to it with it (R39). -/
theorem GrantView.Granted.waits {v : GrantView} (h : v.Granted) (own : v.own = .claiming ∨ v.own = .runPending) :
    ({ v with own := .waiting } : GrantView).waitingReport.Settled := by
  have active : v.own ≠ .none := by rcases own with k | k <;> rw [k] <;> decide
  refine GrantView.Backed.settled_waiting ⟨fun _ => h.backed.standing active, fun off => ?_⟩
    ⟨h.tied.claiming, h.tied.running⟩ fun run => ?_
  · exact absurd (h.backed.offLine off) active
  · by_contra claims
    have := h.running run claims
    rcases own with k | k <;> exact absurd (this.symm.trans k) nofun

variable (h : s.grantView.Granted)
include h

theorem GrantView.Granted.yieldStep (own : s.adm.own = .claiming ∨ s.adm.own = .runPending) :
    s.yieldStep.grantView.Granted := by
  unfold State.yieldStep
  rw [State.grantView_reportWaiting, State.grantView_enter, State.grantView_placeAnnounce, State.grantView_updateOwn]
  exact (h.waits own).granted
theorem GrantView.Granted.lapseRunPending (own : s.adm.own = .runPending) : s.lapseRunPending.grantView.Granted := by
  unfold State.lapseRunPending
  rw [State.grantView_reportWaiting, State.grantView_enter, State.grantView_updateOwn]
  exact (h.waits (.inr own)).granted

/-- A step that waits serves no round that claims or runs for it. -/
theorem GrantView.Granted.free_of_waiting (own : s.adm.own = .waiting) : s.grantView.Free := by
  refine ⟨fun k => ?_, fun run => ?_⟩
  · rcases h.claiming k with e | e | e <;> exact absurd (e.symm.trans own) nofun
  · by_contra claims
    exact absurd ((h.running run claims).symm.trans own) nofun
theorem GrantView.Granted.claim (own : s.adm.own = .waiting) : s.claim.grantView.Granted := by
  have free := h.free_of_waiting own
  have active : s.adm.own ≠ .none := by rw [own]; decide
  unfold State.claim
  rw [State.grantView_reportClaiming, State.grantView_enter, State.grantView_placeAnnounce, State.grantView_updateOwn]
  refine GrantView.Granted.claimingReport (GrantView.Settled.granted ⟨⟨fun _ => h.backed.standing active, fun off => ?_⟩,
    free.claiming, free.running⟩) (.inl rfl)
  exact absurd (h.backed.offLine off) active
theorem GrantView.Granted.runPending (own : s.adm.own = .claiming) : s.runPending.grantView.Granted := by
  have active : s.adm.own ≠ .none := by rw [own]; decide
  unfold State.runPending
  rw [State.grantView_reportClaiming, State.grantView_enter, State.grantView_placeAnnounce]
  refine GrantView.Granted.claimingReport ⟨⟨h.tied.claiming, h.tied.running⟩, fun _ => .inr (.inl rfl), fun run claims => ?_,
    fun _ => h.backed.standing active, fun off => ?_⟩ (.inr rfl)
  · exact absurd ((h.running run claims).symm.trans own) nofun
  · exact absurd (h.backed.offLine off) active
theorem GrantView.Granted.grant (own : s.adm.own = .runPending) : s.grant.grantView.Granted := by
  have active : s.adm.own ≠ .none := by rw [own]; decide
  have view : s.grant.grantView = { s.grantView with own := .running } := by
    show ((s.updateOwn .running).onAdm (Admission.enter .running)).grantView = _
    rw [State.grantView_enter, State.grantView_updateOwn]
  rw [view]
  exact ⟨⟨h.tied.claiming, h.tied.running⟩, fun _ => .inr (.inr rfl), fun _ _ => rfl, fun _ => h.backed.standing active,
    fun off => absurd (h.backed.offLine off) active⟩
theorem GrantView.Granted.stayWaiting : s.stayWaiting.grantView.Granted := by
  unfold State.stayWaiting; split <;> exact h
theorem GrantView.Granted.requestEval (b) : (s.requestEval b).grantView.Granted := by
  rw [State.grantView_requestEval]; exact h
theorem GrantView.Granted.admReticent : s.admReticent.grantView.Granted := by
  unfold State.admReticent; split <;> [exact h.yieldStep ‹_›; exact h]
theorem GrantView.Granted.admEngaged : s.admEngaged.grantView.Granted := by
  unfold State.admEngaged; split <;> [exact h.requestEval _; exact h]
end

/-! ### Stopping a run -/

section
variable {s : State}

/-- The round sequencer's answer to a stop cause leaves a round that needs no grant, and the own step as it is (R79). -/
theorem State.stopReported_free (tie : s.grantView.Tied) (c : StopCause) :
    (s.stopReported (s.stopReply c)).grantView.Free := by
  have left (r : RoundState) (u : State) (h1 : r ≠ .claiming) (h2 : r ≠ .running) : (u.setRound r).grantView.Free := by
    rw [State.grantView_setRound]; exact ⟨h1, fun k => absurd k h2⟩
  unfold State.stopReply
  by_cases acts : s.tagCurrent = true ∧ (s.seq.state = .claiming ∨ s.seq.state = .running)
  · rw [if_pos acts]
    have again : (s.stopReported .again).grantView.Free := by
      show ((s.haltAttempt .shed).openAttempt s.seq.pointer).standAgain.grantView.Free
      unfold State.standAgain
      split
      · exact left _ _ (by decide) (by decide)
      split
      · rename_i claimless
        rw [State.grantView_enterRunning]
        exact ⟨nofun, fun _ => claimless⟩
      · exact left _ _ (by decide) (by decide)
    cases c with
    | shed => exact again
    | routeTaken => exact left _ _ (by decide) (by decide)
    | leaseLost => exact left _ _ (by decide) (by decide)
    | linkLost =>
      dsimp only
      split <;> exact left _ _ (by decide) (by decide)
  · rw [if_neg acts]
    refine ⟨fun k => acts ⟨tie.claiming k, .inl k⟩, fun k => ?_⟩
    by_contra claims
    exact acts ⟨tie.running k claims, .inr k⟩

theorem State.grantView_letGo (s : State) (c pairs) : (s.letGo c pairs).grantView = { s.grantView with own := .none } := by
  unfold State.letGo
  have placed := (State.grantView_placeOp (s.stickyIf (decide (c = .shed)) .shed) (.ownRemove .cip (resourcesOf pairs))).trans
    (State.grantView_stickyIf _ _ _)
  exact congrArg (fun v : GrantView => { v with own := .none }) placed

/-- The request in the answer reaches an admission unit without an own step (R45). -/
theorem State.stopAnswered_settled (free : s.grantView.Free) (own : s.adm.own = .none) (a) :
    (s.stopAnswered a).grantView.Settled := by
  have backed : s.grantView.Backed := .of_none own
  unfold State.stopAnswered
  split
  · exact ⟨backed, free⟩
  · exact ⟨backed, free⟩
  · exact ⟨backed.releaseIfClaims, State.releaseIfClaims_free backed free⟩
  · split
    · rw [State.grantView_releaseRequest backed]
      exact ⟨.of_none rfl, free.claiming, free.running⟩
    · refine GrantView.Settled.takeRequest ?_
      rw [State.grantView_receiveRequest backed]
      exact ⟨.of_none rfl, free.claiming, free.running⟩

/-- A stopped run leaves a round that needs no grant. -/
theorem State.stopRun_settled (tie : s.grantView.Tied) (c : StopCause) : (s.stopRun c).grantView.Settled := by
  rw [State.stopRun_eq]
  have free := State.stopReported_free tie c
  generalize s.stopReported (s.stopReply c) = u at *
  refine State.stopAnswered_settled ?_ rfl _
  rw [State.grantView_letGo]
  exact ⟨free.claiming, free.running⟩

/-- Only a shed run is answered with a new attempt (R79). -/
theorem State.stopReply_ne_again {c : StopCause} (h : c ≠ .shed) : s.stopReply c ≠ .again := by
  unfold State.stopReply
  split
  · cases c with
    | shed => exact absurd rfl h
    | routeTaken => exact nofun
    | leaseLost => exact nofun
    | linkLost => dsimp only; split <;> exact nofun
  · exact nofun
/-- An answer without a new attempt leaves the slots, and the own step NONE (R79). -/
theorem State.stopAnswered_of_none (own : s.adm.own = .none) {a : StopReply} (h : a ≠ .again) :
    (s.stopAnswered a).tx = s.tx ∧ (s.stopAnswered a).adm.own = .none := by
  unfold State.stopAnswered
  split
  · exact ⟨rfl, own⟩
  · exact ⟨rfl, own⟩
  · exact State.releaseIfClaims_of_none own
  · exact absurd rfl h
/-- A run stopped for a cause other than SHED leaves the own step NONE, and its slot as R45 says. -/
theorem State.stopRun_letGo {c : StopCause} (h : c ≠ .shed) :
    (s.stopRun c).adm.own = .none ∧ (s.stopRun c).tx.own = stopContent c s.ownPairs := by
  rw [State.stopRun_eq]
  have g := State.letGo_spec (s.stopReported (s.stopReply c)) c s.ownPairs
  obtain ⟨tx, own⟩ := State.stopAnswered_of_none g.own (State.stopReply_ne_again (s := s) h)
  exact ⟨own, (congrArg Selector.own tx).trans g.content⟩
end

section
variable {s : State} (h : s.grantView.Granted)
include h

theorem GrantView.Granted.stopRun (c) : (s.stopRun c).grantView.Granted := (State.stopRun_settled h.tied c).granted
theorem GrantView.Granted.actVerdict (v) : (s.actVerdict v).grantView.Granted := by
  unfold State.actVerdict
  split
  · split <;> [exact h.stopRun _; exact h]
  · exact h
theorem GrantView.Granted.opDone : s.opDone.grantView.Granted := by rw [State.grantView_opDone]; exact h
theorem GrantView.Granted.dequeue : s.dequeue.grantView.Granted := by rw [State.grantView_dequeue]; exact h
theorem GrantView.Granted.stickyIf (c f) : (s.stickyIf c f).grantView.Granted := by rw [State.grantView_stickyIf]; exact h
theorem GrantView.Granted.notice (l) : (s.notice l).grantView.Granted := by
  unfold State.notice; split <;> [exact h.requestEval _; exact h]
theorem GrantView.Granted.hallResult (l) : (s.hallResult l).grantView.Granted := (h.notice l).actVerdict _
theorem GrantView.Granted.ownResult (l) : (s.ownResult l).grantView.Granted := h.opDone.actVerdict _
theorem GrantView.Granted.updateResult (st l) : (s.updateResult st l).grantView.Granted := by
  unfold State.updateResult
  dsimp only
  split
  · rename_i granting
    split
    · exact h.opDone.stopRun _
    · rw [State.grantView_reportRunning]
      exact GrantView.Granted.runningReport h.opDone granting.2.2
  · exact h.opDone.actVerdict _
theorem GrantView.Granted.actOutcome (o b) : (s.actOutcome o b).grantView.Granted := by
  unfold State.actOutcome
  split
  · exact h
  · exact h
  · split <;> [exact h.claim ‹_›; exact h.stayWaiting]
  · split
    · split <;> [exact h.runPending ‹_›; exact h]
    · exact h.yieldStep (.inl ‹_›)
  · split <;> [exact h; exact h.yieldStep (.inr ‹_›)]
theorem GrantView.Granted.requestWanted : s.requestWanted.grantView.Granted := by
  unfold State.requestWanted
  split
  · rw [State.grantView_requestEval]; exact h
  · exact h
theorem GrantView.Granted.outcome (o) : (s.outcome o).grantView.Granted := by
  unfold State.outcome
  dsimp only
  refine GrantView.Granted.requestWanted ?_
  have handed : ((s.onAdm fun a => { a with evalReq := none }).opDone).grantView.Granted :=
    GrantView.Granted.opDone (s := s.onAdm _) h
  split
  · split <;> [exact handed.actOutcome _ _; exact handed]
  · exact handed
theorem GrantView.Granted.ownDelivered (c) : (s.ownDelivered c).grantView.Granted := by
  unfold State.ownDelivered
  dsimp only
  split
  · exact h
  · rename_i own; exact GrantView.Granted.grant (s := s.onAdm _) h own
  · exact h
  · exact h
  · exact h
theorem GrantView.Granted.productDelivered (i c) : (s.productDelivered i c).grantView.Granted := by
  unfold State.productDelivered; split <;> exact h
theorem GrantView.Granted.judgeHolds : s.judgeHolds.grantView.Granted := by rw [State.grantView_judgeHolds]; exact h
end

/-! ### The link -/

section
variable {s : State}

theorem State.grantView_onLink (f : Link → Link) (line : (s.onLink f).onLine = s.onLine) : (s.onLink f).grantView = s.grantView := by
  show (⟨_, _, _, _, _, (s.onLink f).onLine⟩ : GrantView) = _
  rw [line]; rfl

/-- The own step goes at detachment, and a round that needs no grant does not miss it (R49). -/
theorem State.stepLetGo_settled (free : s.grantView.Free) : s.stepLetGo.grantView.Free ∧ s.stepLetGo.adm.own = .none := by
  unfold State.stepLetGo
  split
  · exact ⟨(State.stopRun_settled free.tied _).free, (State.stopRun_letGo (by decide)).1⟩
  · rename_i own; exact ⟨free, own⟩
  · rw [State.grantView_enter, State.grantView_placeOp]
    exact ⟨⟨free.claiming, free.running⟩, rfl⟩
theorem State.admDetached_settled (free : s.grantView.Free) : s.admDetached.grantView.Settled := by
  obtain ⟨free', own⟩ := State.stepLetGo_settled free
  have view : s.admDetached.grantView = s.stepLetGo.grantView := by
    rw [State.admDetached_eq, State.grantView_onAdm _ _ rfl rfl, State.grantView_emptyProducts, State.grantView_placeOwn,
      State.grantView_dropHolds]
  rw [view]
  exact ⟨.of_none own, free'⟩

/-- Off the line a round neither claims nor runs a claimed step (R80). -/
theorem State.seqDetached_free : s.seqDetached.grantView.Free := by
  unfold State.seqDetached
  split
  · rw [State.grantView_setRound]; exact ⟨nofun, nofun⟩
  · rename_i run
    split
    · rename_i claimless
      exact ⟨fun k => absurd (run.symm.trans k) nofun, fun _ => claimless⟩
    · refine ⟨fun k => ?_, fun k => ?_⟩
      all_goals
        have : (s.suspend .linkLost).seq.state = _ := k
        rw [State.suspend_seq] at this
        exact absurd this nofun
  · rename_i h1 h2; exact ⟨h1, fun k => absurd k h2⟩
theorem State.enterDetached_settled : s.enterDetached.grantView.Settled := by
  unfold State.enterDetached; exact State.admDetached_settled State.seqDetached_free
theorem State.enterBarred_settled : s.enterBarred.grantView.Settled := by
  unfold State.enterBarred
  refine State.admDetached_settled ?_
  obtain ⟨-, claiming, running, -⟩ := State.seqBarred_seq ((s.onLink fun l =>
    { l with state := .barred, quiet := .stopped, role := .none }).onTx fun t => { t with holdBack := .stopped })
  exact ⟨claiming, fun k => absurd k running⟩
end

section
variable {s : State} (h : s.grantView.Granted)
include h

theorem GrantView.Granted.onLink (f : Link → Link) (line : (s.onLink f).onLine = s.onLine) : (s.onLink f).grantView.Granted := by
  rw [State.grantView_onLink f line]; exact h
theorem GrantView.Granted.judgeLink : s.judgeLink.grantView.Granted := by
  unfold State.judgeLink
  split
  · exact State.enterDetached_settled.granted
  split
  · rename_i k
    have moved : (s.onLink fun l => { l with state := .reticent }).grantView.Granted :=
      h.onLink _ (by simp [State.onLine, k.1])
    exact GrantView.Granted.admReticent (s := (s.onLink fun l => { l with state := .reticent }).sticky .reticentEntered) moved
  split
  · rename_i k
    exact GrantView.Granted.admEngaged (h.onLink (fun l => { l with state := .engaged }) (by simp [State.onLine, k.1]))
  · exact h
theorem GrantView.Granted.moveCounts (a b) : (s.moveCounts a b).grantView.Granted := by
  unfold State.moveCounts; split <;> [exact h; exact GrantView.Granted.judgeLink (h.onLink _ rfl)]
theorem GrantView.Granted.frameOver (a) : (s.frameOver a).grantView.Granted := h
theorem GrantView.Granted.checkFailed (a) : (s.checkFailed a).grantView.Granted := by
  unfold State.checkFailed
  dsimp only
  split
  · exact (h.frameOver a).moveCounts _ _
  · exact (h.frameOver a).moveCounts _ _
  · exact h
  · exact h
theorem GrantView.Granted.tecMove (o) : (s.tecMove o).grantView.Granted := by
  unfold State.tecMove
  split
  · exact h.moveCounts _ _
  · exact h.moveCounts _ _
  · exact h.moveCounts _ _
  · exact h
theorem GrantView.Granted.recordTaken : s.recordTaken.grantView.Granted := by
  unfold State.recordTaken
  split
  · exact (h.backed.settled_round (by decide) (by decide)).takePending.granted
  · exact h
theorem GrantView.Granted.fragmentDelivered : s.fragmentDelivered.grantView.Granted := by
  unfold State.fragmentDelivered
  split
  · exact h
  split
  · exact h
  · refine GrantView.Granted.recordTaken ?_
    rw [State.grantView_takeRecord]; exact h
theorem GrantView.Granted.currentDelivery (x) : (s.currentDelivery x).grantView.Granted := by
  unfold State.currentDelivery
  split
  · split <;> [exact GrantView.Granted.ownDelivered (s := s.onTx _) h _; exact h]
  · split <;> [exact GrantView.Granted.productDelivered (s := s.onTx _) h _ _; exact h]
  · exact h
  · exact h.fragmentDelivered
theorem GrantView.Granted.handOutcome (o) : (s.handOutcome o).grantView.Granted := by
  unfold State.handOutcome
  split
  · exact h
  dsimp only
  split
  · split
    · exact h
    · refine GrantView.Granted.currentDelivery ?_ _
      exact h
  · exact h
  · exact h
  · exact h

theorem GrantView.Granted.command (c) : (s.command c).grantView.Granted := by
  unfold State.command
  split
  · exact h.roundRequest _ _
  · exact h.cutRound _
  · exact h.resumeRound _
  · exact h
theorem GrantView.Granted.enqueueIf (o) : (s.enqueueIf o).grantView.Granted := by
  unfold State.enqueueIf
  split
  · rw [State.grantView_enqueue]; exact h
  · exact h
theorem GrantView.Granted.handOn (k f) : (s.handOn k f).grantView.Granted := by
  unfold State.handOn
  split
  · exact h.enqueueIf _
  · exact h.enqueueIf _
  · exact h.enqueueIf _
  · exact h.enqueueIf _
  · split <;> [exact h.command _; exact h]
  · exact h
theorem GrantView.Granted.receiveFrame (k f) : (s.receiveFrame k f).grantView.Granted := by
  unfold State.receiveFrame
  split
  · split
    · dsimp only
      split
      · unfold State.deliveredFrame
        split
        · exact State.enterBarred_settled.granted
        split
        · dsimp only
          have lowered : (s.frameOver (s.answerTo k f)).recDown.grantView.Granted := (h.frameOver _).moveCounts _ _
          split <;> [exact lowered.handOn _ _; exact lowered]
        · exact h
      · exact h
    · exact h.checkFailed _
  · exact h

/-- At rejoin the standing request is taken by a round that did without the own step (R50). -/
theorem GrantView.Granted.rejoin (state : s.link.state = .detached) : s.rejoined.takeRequest.judgeHolds.grantView.Granted := by
  have off : s.grantView.line = false := by simp [State.grantView, State.onLine, state]
  have own := h.backed.offLine off
  have claiming : s.seq.state ≠ .claiming := fun k => by
    rcases h.claiming k with e | e | e <;> exact absurd (e.symm.trans own) nofun
  have running : s.seq.state = .running → s.curStep.pairs = [] := fun k => by
    by_contra claims
    exact absurd ((h.running k claims).symm.trans own) nofun
  rw [State.grantView_judgeHolds]
  have view : s.rejoined.grantView = { s.grantView with own := .none, line := true } := rfl
  refine (GrantView.Settled.takeRequest ?_).granted
  rw [view]
  exact ⟨.of_none rfl, claiming, running⟩

/-! ### The list controller and the inputs -/

theorem GrantView.Granted.hallOperation {u : State} (same : u.grantView = s.grantView) (l) :
    (u.dequeue.hallResult l).grantView.Granted := by
  have : u.grantView.Granted := same ▸ h
  exact this.dequeue.hallResult l
theorem GrantView.Granted.carryAnnouncement (a) : (s.carryAnnouncement a).grantView.Granted := by
  unfold State.carryAnnouncement
  split
  · exact h.hallOperation rfl _
  · refine h.hallOperation ?_ _
    rw [State.grantView_stickyIf, State.grantView_stickyIf]; rfl
theorem GrantView.Granted.carryRelease (o r w) : (s.carryRelease o r w).grantView.Granted := by
  unfold State.carryRelease
  dsimp only
  split
  · exact h.hallOperation rfl _
  · exact h.hallOperation (u := s.onBoard _) rfl _
theorem GrantView.Granted.carryInhibit (v w) : (s.carryInhibit v w).grantView.Granted := h.hallOperation (by rfl) _
theorem GrantView.Granted.carryInsert (r p k st) : (s.carryInsert r p k st).grantView.Granted := by
  unfold State.carryInsert
  have noted : ∀ c f, ((s.onBoard f).stickyIf c .overcommit).grantView.Granted := fun c f => by
    rw [State.grantView_stickyIf]; exact h
  exact (noted _ _).dequeue.ownResult _
theorem GrantView.Granted.carryUpdate (r p k st) : (s.carryUpdate r p k st).grantView.Granted := by
  unfold State.carryUpdate
  have noted : ∀ c f, ((s.onBoard f).stickyIf c .overcommit).grantView.Granted := fun c f => by
    rw [State.grantView_stickyIf]; exact h
  exact (noted _ _).dequeue.updateResult _ _
theorem GrantView.Granted.carryRemove (r rs) : (s.carryRemove r rs).grantView.Granted := by
  unfold State.carryRemove
  exact (GrantView.Granted.dequeue (s := s.onBoard _) h).ownResult _
theorem GrantView.Granted.carryEvaluate : s.carryEvaluate.grantView.Granted := (h.dequeue.outcome _).actVerdict _

theorem GrantView.Granted.confirmEdge : s.confirmEdge.grantView.Granted := by
  unfold State.confirmEdge
  split
  · exact h.backed.proceed.granted
  · exact h.resumeRound _
  · exact h
theorem GrantView.Granted.stopActive : s.stopActive.grantView.Granted := by
  unfold State.stopActive
  refine GrantView.Granted.cutRound ?_ _
  rw [State.grantView_stickyIf]; exact h
theorem GrantView.Granted.noReply : s.noReply.grantView.Granted := by
  unfold State.noReply
  refine GrantView.Granted.takeSample ?_ _
  rw [State.grantView_stickyIf]; exact h
theorem GrantView.Granted.ageStep : s.ageStep.grantView.Granted := by
  unfold State.ageStep
  rw [State.grantView_requestEval]
  split
  · rw [State.grantView_placeAnnounce, State.grantView_updateOwn]; exact h
  · rw [State.grantView_updateOwn]; exact h
end

/-! ### Every command -/

/-- A node that begins afresh has neither a round nor an own step. -/
theorem GrantView.Granted.of_idle {v : GrantView} (round : v.round = .idle) (own : v.own = .none) : v.Granted :=
  (GrantView.Settled.mk (.of_none own) ⟨by rw [round]; decide, fun k => absurd (round.symm.trans k) nofun⟩).granted

theorem exec_granted (c : Instr) (s : State) (h : s.grantView.Granted) : ∃ u, exec c s = done u ∧ u.grantView.Granted := by
  cases c with
  | powerUp => exact ⟨_, rfl, .of_idle rfl rfl⟩
  | resetRisingEdge => refine ⟨_, rfl, ?_⟩; split <;> [exact .of_idle rfl rfl; exact h]
  | startUpComplete =>
    refine ⟨_, rfl, ?_⟩
    split
    · rw [State.grantView_judgeHolds]; exact .of_idle rfl rfl
    · exact h
  | resetFallingEdge => refine ⟨_, rfl, ?_⟩; split <;> exact h
  | imageReadEnd bytes => refine ⟨_, rfl, ?_⟩; split <;> exact h
  | uptimeTick => refine ⟨_, rfl, ?_⟩; split <;> exact h
  | inputLevelChange x active => exact ⟨_, rfl, h⟩
  | reqRisingEdge i =>
    refine ⟨_, rfl, ?_⟩; split <;> [exact GrantView.Granted.roundRequest (s := s.onPort _) h _ _; exact h]
  | confirmRisingEdge =>
    refine ⟨_, rfl, ?_⟩; split <;> [exact GrantView.Granted.confirmEdge (s := s.onPort _) h; exact h]
  | stopChange =>
    refine ⟨_, rfl, ?_⟩
    split
    · dsimp only
      split <;> [exact GrantView.Granted.stopActive (s := s.onPort _) h; exact h]
    · exact h
  | prodLineChange i =>
    refine ⟨_, rfl, ?_⟩; split <;> [exact GrantView.Granted.judgeHolds (s := s.onPort _) h; exact h]
  | samplePeriodExpiry => refine ⟨_, rfl, ?_⟩; split <;> exact h
  | sampleReply bytes =>
    refine ⟨_, rfl, ?_⟩
    split
    · split
      · split <;> [exact GrantView.Granted.takeSample (s := s.onPort _) h _; exact h]
      · exact h.noReply
    · exact h
  | replyTimeout => refine ⟨_, rfl, ?_⟩; split <;> [exact h.noReply; exact h]
  | applyAnnouncementCip =>
    refine ⟨_, rfl, ?_⟩
    split
    · split <;> [exact h.carryAnnouncement _; exact h]
    · exact h
  | applyAnnouncementProduct =>
    refine ⟨_, rfl, ?_⟩
    split
    · split <;> [exact h.carryAnnouncement _; exact h]
    · exact h
  | applyRelease => refine ⟨_, rfl, ?_⟩; split <;> [exact h.carryRelease _ _ _; exact h]
  | inhibitOperation => refine ⟨_, rfl, ?_⟩; split <;> [exact h.carryInhibit _ _; exact h]
  | clearOperation => refine ⟨_, rfl, ?_⟩; split <;> [exact h.carryInhibit _ _; exact h]
  | ownInsert => refine ⟨_, rfl, ?_⟩; split <;> [exact h.carryInsert _ _ _ _; exact h]
  | ownUpdate => refine ⟨_, rfl, ?_⟩; split <;> [exact h.carryUpdate _ _ _ _; exact h]
  | ownRemove => refine ⟨_, rfl, ?_⟩; split <;> [exact h.carryRemove _ _; exact h]
  | evaluate => refine ⟨_, rfl, ?_⟩; split <;> [exact h.carryEvaluate; exact h]
  | entryExpiry n =>
    refine ⟨_, rfl, ?_⟩
    split
    · split
      · exact GrantView.Granted.hallResult (GrantView.Granted.stickyIf (s := s.onBoard _) h _ _) _
      · exact h
    · exact h
  | incompleteTimerExpiry r =>
    refine ⟨_, rfl, ?_⟩; split <;> [exact GrantView.Granted.notice (s := s.onBoard _) h _; exact h]
  | agingExpiry =>
    refine ⟨_, rfl, ?_⟩
    split
    · dsimp only
      split <;> [exact GrantView.Granted.ageStep (s := s.onAdm _) h; exact h]
    · exact h
  | learningExpiry =>
    refine ⟨_, rfl, ?_⟩; split <;> [exact GrantView.Granted.admEngaged (s := s.onAdm _) h; exact h]
  | settleExpiry =>
    refine ⟨_, rfl, ?_⟩
    split
    · rename_i claiming
      dsimp only
      have stopped : (s.onAdm fun a => { a with settle := .stopped }).grantView.Granted := h
      split <;> [exact stopped.requestEval _; exact stopped.yieldStep (.inl claiming.2)]
    · exact h
  | lapseExpiry =>
    refine ⟨_, rfl, ?_⟩
    have flagged : (s.sticky .claimLapsed).grantView.Granted := h
    split
    · split
      · rename_i own; exact (flagged.lapseRunPending own).requestEval _
      · rename_i own; exact (flagged.yieldStep (.inl own)).requestEval _
      · exact h
    · exact h
  | refreshExpiry =>
    refine ⟨_, rfl, ?_⟩
    split
    · dsimp only
      split <;> exact h
    · exact h
  | guardExpiry => refine ⟨_, rfl, ?_⟩; split <;> [exact h.stopRun _; exact h]
  | productRefreshExpiry i =>
    refine ⟨_, rfl, ?_⟩
    split
    · split <;> exact h
    · exact h
  | stepTimerExpiry => refine ⟨_, rfl, ?_⟩; split <;> [exact h.suspend _; exact h]
  | pauseTimerExpiry => refine ⟨_, rfl, ?_⟩; split <;> exact h
  | suspendTimerExpiry => refine ⟨_, rfl, ?_⟩; split <;> [exact (h.backed.closeRound _).granted; exact h]
  | announce f => exact ⟨_, rfl, h.receiveFrame _ _⟩
  | release f => exact ⟨_, rfl, h.receiveFrame _ _⟩
  | inhibit f => exact ⟨_, rfl, h.receiveFrame _ _⟩
  | clear f => exact ⟨_, rfl, h.receiveFrame _ _⟩
  | request f => exact ⟨_, rfl, h.receiveFrame _ _⟩
  | abort f => exact ⟨_, rfl, h.receiveFrame _ _⟩
  | resume f => exact ⟨_, rfl, h.receiveFrame _ _⟩
  | report f => exact ⟨_, rfl, h.receiveFrame _ _⟩
  | status f => exact ⟨_, rfl, h.receiveFrame _ _⟩
  | record f => exact ⟨_, rfl, h.receiveFrame _ _⟩
  | unknownKind k f => exact ⟨_, rfl, h.receiveFrame _ _⟩
  | commandNotAddressed f => exact ⟨_, rfl, h.receiveFrame _ _⟩
  | receivedFrameCheckFailed => refine ⟨_, rfl, ?_⟩; split <;> [exact h.checkFailed _; exact h]
  | frameBreakOff => refine ⟨_, rfl, ?_⟩; split <;> [exact h.checkFailed _; exact h]
  | arbitrationLost => refine ⟨_, rfl, ?_⟩; split <;> exact h
  | frameAbandon =>
    refine ⟨_, rfl, ?_⟩
    split
    · refine GrantView.Granted.moveCounts ?_ _ _
      exact h
    · exact h
  | ownFrameEnd k => refine ⟨_, rfl, ?_⟩; split <;> [exact ((h.frameOver _).tecMove _).handOutcome _; exact h]
  | mediumIdle => refine ⟨_, rfl, ?_⟩; split <;> exact h
  | peerStartField => refine ⟨_, rfl, ?_⟩; split <;> exact h
  | holdBackExpiry => refine ⟨_, rfl, ?_⟩; split <;> exact h
  | rejoin => refine ⟨_, rfl, ?_⟩; split <;> [(rename_i k; exact h.rejoin k.2); exact h]
  | statusPeriodExpiry => refine ⟨_, rfl, ?_⟩; split <;> exact h

end Sys2Proof.Machine

open Sys2Proof Sys2Proof.Machine

/-- Settles O11: whatever ends the own step's run ends, or has ended, the round's use of it; what starts such use finds the grant. -/
theorem claimedStepRunsUnderGrant : Obligations.ClaimedStepRunsUnderGrant := by
  intro s t hs h
  rw [State.granted_iff] at hs ⊢
  refine step_keeps (P := fun s => s.grantView.Granted) (fun _ _ k => k) (fun c s t k e => ?_) (fun s k => ?_) hs h
  · obtain ⟨u, hu, granted⟩ := exec_granted c s k
    rw [hu] at e
    rw [done_next e, State.grantView_finish]
    exact granted
  · rw [State.grantView_finish, State.grantView_tick]
    exact k

end

section
/-! Aging and the learning time (R27, R28, R31, R48), and that an own operation once placed stays placed (R33). -/

namespace Sys2Proof.Machine

/-! ### Own operations placed -/

/-- An own operation waits in the update queue or in the admission unit (R33). -/
def State.Awaits (s : State) (op : Op) : Prop := op ∈ s.updates.ops ++ s.adm.waiting

theorem State.placeOp_awaits (s : State) (op : Op) : (s.placeOp op).Awaits op := by
  unfold State.Awaits
  rw [State.placeOp_ops, State.placeOp_adm]
  split <;> simp

/-- What waits goes on waiting while further operations are placed. -/
theorem Placing.awaits {s t : State} (h : Placing s t) {op : Op} (k : s.Awaits op) : t.Awaits op := by
  induction h with
  | quiet q => unfold State.Awaits at *; rwa [q.updates, q.waiting]
  | @place u o _ =>
    unfold State.Awaits at *
    rw [State.placeOp_ops, State.placeOp_adm]
    rw [List.mem_append] at k
    split <;> rcases k with k | k <;> simp [k]
  | trans _ _ ih ik => exact ik (ih k)
theorem State.Awaits.finish {s : State} {op : Op} (h : s.Awaits op) : op ∈ s.finish.updates.ops ++ s.finish.adm.waiting := by
  rw [State.finish_updates, State.finish_adm]; exact h

/-! ### Aging -/

/-- The own step one urgency higher, its own entries' update placed. -/
def State.raised (s : State) : State := (s.onAdm fun a => { a with urgency := a.urgency + 1 }).updateOwn .waiting
/-- The WAIT placed again where one has been delivered in this stay. -/
def State.reannounced (s : State) : State :=
  if s.adm.refresh.on then s.raised.placeAnnounce .wait s.settings.leaseLife else s.raised

/-- One step of aging, before the evaluation. -/
structure Raised (s t : State) : Prop where
  frame : Untouched [.updates, .adm, .tx, .log] s t
  log : SameLog s.log t.log
  urgency : t.adm.urgency = s.adm.urgency + 1
  aging : t.adm.aging = s.adm.aging
  own : t.adm.own = s.adm.own
  standing : t.adm.standing = s.adm.standing
  state : t.adm.state = s.adm.state
  key : s.adm.urgency < 62 → t.ownKey + 64 = s.ownKey
  placed : t.Awaits (.ownUpdate .cip s.ownPairs t.ownKey .waiting)
  sent : t.tx.own = if s.adm.refresh.on then some (.announce .wait t.ownKey s.settings.leaseLife s.ownPairs) else s.tx.own

theorem State.raised_spec (s : State) : SameStep { s.adm with urgency := s.adm.urgency + 1 } s.raised.adm
    ∧ Untouched [.updates, .adm, .log] s s.raised ∧ SameLog s.log s.raised.log ∧ s.raised.tx = s.tx
    ∧ s.raised.Awaits (.ownUpdate .cip s.ownPairs s.raised.ownKey .waiting) := by
  have step := (s.onAdm fun a => { a with urgency := a.urgency + 1 }).placeOp_step
    (.ownUpdate .cip s.ownPairs (s.onAdm fun a => { a with urgency := a.urgency + 1 }).ownKey .waiting)
  have frame := Untouched.placeOp (s.onAdm fun a => { a with urgency := a.urgency + 1 })
    (.ownUpdate .cip s.ownPairs (s.onAdm fun a => { a with urgency := a.urgency + 1 }).ownKey .waiting)
  have key : s.raised.ownKey = (s.onAdm fun a => { a with urgency := a.urgency + 1 }).ownKey := by
    unfold State.ownKey
    rw [show s.raised.adm.urgency = _ from step.urgency, show s.raised.settings = _ from frame.settings (by decide)]
  rw [key]
  exact ⟨step, ((Untouched.onAdm s _).mono (by decide)).trans frame, State.placeOp_log _ _, State.placeOp_tx _ _,
    State.placeOp_awaits _ _⟩

theorem State.reannounced_spec (s : State) : Raised s s.reannounced := by
  obtain ⟨step, frame, log, tx, placed⟩ := s.raised_spec
  have key : s.adm.urgency < 62 → s.raised.ownKey + 64 = s.ownKey := fun low => by
    unfold State.ownKey
    rw [step.urgency, frame.settings (by decide)]
    dsimp only
    omega
  have pairs : s.raised.ownPairs = s.ownPairs := State.ownPairs_congr step.standing
  unfold State.reannounced
  split
  · rename_i sends
    refine ⟨(frame.mono (by decide)).trans ((Untouched.placeAnnounce _ _ _).mono (by decide)), log, step.urgency, step.aging,
      step.own, step.standing, step.state, key, placed, ?_⟩
    rw [if_pos sends, ← pairs]
    rfl
  · rename_i silent
    exact ⟨frame.mono (by decide), log, step.urgency, step.aging, step.own, step.standing, step.state, key, placed,
      by rw [if_neg silent, tx]⟩

/-- Aging below urgency 62 (R28): the step raised and announced, and an evaluation requested. -/
theorem State.ageStep_spec (s : State) : Raised s s.ageStep
    ∧ (s.adm.own = .waiting → s.adm.state = .active → s.link.state = .engaged → s.ageStep.adm.evalReq.isSome = true) := by
  have r := s.reannounced_spec
  have form : s.ageStep = s.reannounced.requestEval false := by
    unfold State.ageStep State.reannounced
    rw [← s.raised_spec.2.1.settings (by decide)]
    rfl
  rw [form]
  generalize s.reannounced = u at *
  have step := u.requestEval_step false
  have placing := (Placing.refl u).requestEval false
  have key : (u.requestEval false).ownKey = u.ownKey := by
    unfold State.ownKey; rw [step.urgency, placing.settings]
  refine ⟨⟨?_, r.log.trans (u.requestEval_log _), step.urgency.trans r.urgency, step.aging.trans r.aging, step.own.trans r.own,
    step.standing.trans r.standing, step.state.trans r.state, ?_, ?_, ?_⟩, fun own active engaged => ?_⟩
  · exact r.frame.trans ((Untouched.requestEval _ _).mono (by decide))
  · rw [key]; exact r.key
  · rw [key]; exact placing.awaits r.placed
  · rw [key, State.requestEval_tx]; exact r.sent
  · refine State.requestEval_isSome ?_ ?_ false
    · unfold State.canEvaluate
      rw [r.state, active, r.frame.link (by decide), engaged]
      decide
    · rw [r.own, own]; rfl

/-- The aging timer back at 0 (R28). -/
def State.agingCleared (s : State) : State := s.onAdm fun a => { a with aging := 0 }

/-- At its interval the aging timer is cleared, and below urgency 62 the step ages. -/
theorem exec_aging_due {s : State} (due : s.agingDue = true) : exec .agingExpiry s =
    done (if s.adm.urgency < 62 then s.agingCleared.ageStep else s.agingCleared) := congrArg done (if_pos due)

/-! ### The learning time -/

/-- The node is ACTIVE, its learning timer stopped (R31). -/
def State.learningOver (s : State) : State := s.onAdm fun a => { a with state := .active, learning := .stopped }

theorem exec_learning_due {s : State} (runs : s.adm.learning.on = true) : exec .learningExpiry s = done s.learningOver.admEngaged :=
  congrArg done (if_pos runs)

theorem State.admEngaged_step (s : State) : SameStep s.adm s.admEngaged.adm ∧ Untouched [.updates, .adm, .log] s s.admEngaged
    ∧ SameLog s.log s.admEngaged.log ∧ s.updates.ops <+: s.admEngaged.updates.ops := by
  unfold State.admEngaged
  split
  · exact ⟨s.requestEval_step _, .requestEval s _, s.requestEval_log _, s.requestEval_prefix _⟩
  · exact ⟨.refl _, .refl _ s, .inl rfl, List.prefix_rfl⟩
theorem State.admEngaged_requests {s : State} (own : s.adm.own = .waiting) (can : s.canEvaluate = true) :
    s.admEngaged.adm.evalReq.isSome = true := by
  unfold State.admEngaged
  rw [if_pos own]
  exact State.requestEval_isSome can (by rw [own]; rfl) _

end Sys2Proof.Machine

open Sys2Proof Sys2Proof.Machine

/-- Settles O30: each expiry by its equation, the early instants unfolded to a test that fails. -/
theorem agingAndLearning : Obligations.AgingAndLearning := by
  refine ⟨fun s own active line _ interval => ?_, fun s early => ?_, fun s runs => ?_⟩
  · have run := exec_aging_due ((State.agingDue_iff s).2 ⟨own, active, of_decide_eq_true line, interval⟩)
    have cleared : Untouched [.adm] s s.agingCleared := .onAdm s _
    by_cases low : s.adm.urgency < 62
    · rw [if_pos low] at run
      obtain ⟨r, evaluates⟩ := s.agingCleared.ageStep_spec
      have key : s.agingCleared.ageStep.finish.ownKey = s.agingCleared.ageStep.ownKey := by
        unfold State.ownKey; rw [State.finish_adm, State.finish_settings]
      refine ⟨_, run, ((cleared.mono (by decide)).trans r.frame).finish, ?_, ?_, ?_, ?_, fun full => absurd low (by omega), fun _ => ?_⟩
      · rw [State.finish_log]; exact r.log
      · rw [State.finish_adm]; exact r.aging
      · rw [State.finish_adm]; exact r.own.trans own
      · rw [State.finish_adm]; exact r.standing
      · rw [key]
        refine ⟨?_, r.key low, r.placed.finish, ?_, fun engaged => ?_⟩
        · rw [State.finish_adm]; exact r.urgency
        · rw [State.finish_own]; exact r.sent
        · rw [State.finish_adm]; exact evaluates own active engaged
    · rw [if_neg low] at run
      refine ⟨_, run, (cleared.mono (by decide)).finish, ?_, ?_, ?_, ?_, fun _ => ⟨?_, ?_, ?_⟩, fun k => absurd k low⟩
      · rw [State.finish_log]; exact .inl rfl
      · rw [State.finish_adm]; rfl
      · rw [State.finish_adm]; exact own
      · rw [State.finish_adm]; rfl
      · rw [State.finish_adm]; rfl
      · rw [State.finish_own]; rfl
      · rw [State.finish_updates]; rfl
  · have early' : ¬ s.agingDue = true := fun k => by have := ((State.agingDue_iff s).1 k).2.2.2; omega
    exact ⟨s.finish, congrArg done (if_neg early'), (Untouched.refl _ s).finish⟩
  · obtain ⟨step, frame, log, ops⟩ := s.learningOver.admEngaged_step
    refine ⟨_, exec_learning_due runs, (((Untouched.onAdm s _).mono (by decide)).trans frame).finish, ?_, ?_, ?_, ?_, ?_, ?_,
      fun own engaged => ?_⟩
    · rw [State.finish_log]; exact log
    · rw [State.finish_adm]; exact step.state
    · rw [State.finish_adm]; exact step.learning
    · rw [State.finish_adm]; exact step.own
    · rw [State.finish_adm]; exact step.standing
    · rw [State.finish_updates]; exact ops
    · rw [State.finish_adm]
      exact State.admEngaged_requests (s := s.learningOver) own (decide_eq_true ⟨rfl, engaged⟩)

end

section
/-! The timers of the own step (R40, R42 to R45): settle, lapse, refresh and guard. -/

namespace Sys2Proof.Machine

/-! ### Requesting an evaluation -/

/-- A trigger where an evaluation is possible: requested, or marked as wanted (R33, R40). -/
theorem State.requestEval_made {s : State} (can : s.canEvaluate = true) (ev : s.adm.own.evaluated = true) (b : Bool) :
    (s.adm.evalReq = none → (s.requestEval b).adm.evalReq = some ⟨s.adm.stay, b⟩)
    ∧ (s.adm.evalReq ≠ none → (s.requestEval b).adm.evalReq = s.adm.evalReq ∧ (s.requestEval b).adm.wanted = true
        ∧ (s.requestEval b).adm.wantedSettle = (s.adm.wantedSettle || b)) := by
  rcases s.requestEval_cases b with ⟨n, -⟩ | ⟨-, none, e⟩ | ⟨-, some, e⟩
  · exact absurd ⟨can, ev⟩ n
  · refine ⟨fun _ => ?_, fun k => absurd none k⟩
    rw [e, State.placeOp_adm]
    split <;> rfl
  · refine ⟨fun k => absurd k some, fun _ => ?_⟩
    rw [e]
    exact ⟨rfl, rfl, rfl⟩

/-! ### The step returns to WAITING -/

/-- A step that had claimed waits again: its entries' update is placed, its timers have stopped, and the round is told (R39, R42). -/
structure Returned (s t : State) (sent : Option OwnFrame) : Prop where
  placing : Placing s t
  own : t.adm.own = .waiting
  settle : t.adm.settle = .stopped
  lapse : t.adm.lapse = .stopped
  standing : t.adm.standing = s.adm.standing
  state : t.adm.state = s.adm.state
  sent : t.tx.own = sent
  placed : t.Awaits (.ownUpdate .cip s.ownPairs s.ownKey .waiting)
  report : s.tagCurrent = true → s.seq.state = .claiming → t.seq.state = .waiting

/-- A step whose entries' update is placed enters WAITING, and the round is told. -/
theorem Returned.of_updated {s u : State} {sent} (placing : Placing s u) (standing : u.adm.standing = s.adm.standing)
    (state : u.adm.state = s.adm.state) (placed : u.Awaits (.ownUpdate .cip s.ownPairs s.ownKey .waiting))
    (seq : u.seq = s.seq) (own : u.tx.own = sent) : Returned s (u.onAdm (Admission.enter .waiting)).reportWaiting sent := by
  have rep := (u.onAdm (Admission.enter .waiting)).reportWaiting_reported
  refine ⟨(placing.enter .waiting).reportWaiting, by rw [rep.adm]; rfl, by rw [rep.adm]; rfl, by rw [rep.adm]; rfl,
    by rw [rep.adm]; exact standing, by rw [rep.adm]; exact state, rep.own.trans own, ?_, fun tag claiming => ?_⟩
  · unfold State.Awaits
    rw [rep.updates, rep.adm]
    exact placed
  · refine State.reportWaiting_state ?_ (by rw [State.onAdm_seq, seq]; exact claiming)
    exact (State.tagCurrent_congr standing (congrArg Sequencer.tag seq)).trans tag

theorem State.yieldStep_returned (s : State) :
    Returned s s.yieldStep (some (.announce .wait s.ownKey s.settings.leaseLife s.ownPairs)) := by
  have step := s.placeOp_step (.ownUpdate .cip s.ownPairs s.ownKey .waiting)
  exact .of_updated (u := (s.updateOwn .waiting).placeAnnounce .wait s.settings.leaseLife)
    (((Placing.refl s).updateOwn _ (by decide)).placeAnnounce _ _) step.standing step.state (s.placeOp_awaits _)
    (s.placeOp_seq _) (s.announceAs_spec .waiting .wait s.settings.leaseLife .waiting).1.sent
theorem State.lapseRunPending_returned (s : State) : Returned s s.lapseRunPending none := by
  have step := (s.placeOwn none).placeOp_step (.ownUpdate .cip s.ownPairs s.ownKey .waiting)
  exact .of_updated (u := (s.placeOwn none).updateOwn .waiting)
    (((Placing.refl s).placeOwn none).updateOwn _ (by decide)) step.standing step.state ((s.placeOwn none).placeOp_awaits _)
    ((s.placeOwn none).placeOp_seq _) (congrArg Selector.own ((s.placeOwn none).placeOp_tx _))

/-- An evaluation requested in WAITING leaves the return as it is (R32). -/
theorem Returned.requestEval {s t : State} {sent} (h : Returned s t sent) (b) : Returned s (t.requestEval b) sent := by
  have step := t.requestEval_step b
  exact ⟨h.placing.requestEval b, step.own.trans h.own, step.settle.trans h.settle, step.lapse.trans h.lapse,
    step.standing.trans h.standing, step.state.trans h.state, by rw [State.requestEval_tx]; exact h.sent,
    ((Placing.refl t).requestEval b).awaits h.placed, by rw [State.requestEval_seq]; exact h.report⟩
theorem Returned.requests {s t : State} {sent} (h : Returned s t sent) (can : s.canEvaluate = true) (b) :
    (t.requestEval b).adm.evalReq.isSome = true := by
  refine State.requestEval_isSome ?_ (by rw [h.own]; rfl) b
  unfold State.canEvaluate at can ⊢
  rwa [h.state, h.placing.link]

/-! ### Stopping a run -/

/-- The answer to a stop that suspends the round: its attempt ended, its share of the hall withdrawn (R79, R88). -/
theorem State.RunStands.suspends {s : State} (run : s.RunStands) {c : StopCause} {k : Cause} (reply : s.stopReply c = .suspends k) :
    Suspended s (s.stopRun c) k := by
  rw [State.stopRun_eq, reply]
  dsimp only [State.stopReported, State.stopAnswered]
  obtain ⟨f1, seq1, ver1⟩ := s.haltAttempt_spec k.outcome
  obtain ⟨f2, seq2⟩ := (s.haltAttempt k.outcome).enterSuspended_spec k
  generalize s.haltAttempt k.outcome = x at *
  generalize x.enterSuspended k = y at *
  have g := (y.letGo_spec c s.ownPairs).frame
  generalize y.letGo c s.ownPairs = z at *
  obtain ⟨f3, -, withdrawn, -⟩ := z.releaseIfClaims_spec
  have seq : z.seq = _ := (g.seq (by decide)).trans (seq2.trans (by rw [seq1]))
  have step : z.curStep = s.curStep := by
    refine State.curStep_congr ?_ (by rw [seq]) (by rw [seq])
    rw [g.store (by decide), f2.store (by decide), f1.store (by decide)]
  have ver : z.releaseIfClaims.ver = { s.ver with mode := .off } := by
    rw [f3.ver (by decide), g.ver (by decide), f2.ver (by decide), ver1, if_pos run.attempt]
  have round := (f3.seq (by decide)).trans seq
  exact ⟨by rw [round], by rw [round], by rw [round], by rw [round], by simp [round], by simp [round, ver], by simp [round],
    fun claims => (withdrawn (step ▸ claims)).1⟩

/-- The own remove of a stopped run waits (R45). -/
theorem State.stopRun_awaits (s : State) (c : StopCause) : (s.stopRun c).Awaits (.ownRemove .cip (resourcesOf s.ownPairs)) := by
  rw [State.stopRun_eq]
  refine ((Placing.refl _).stopAnswered _).awaits ?_
  unfold State.letGo
  exact (((Placing.refl _).enter _).placeOwn _).awaits (State.placeOp_awaits _ _)

/-! ### The commands -/

section
variable {s : State}

theorem exec_settle_due (on : s.adm.settle.on = true) (own : s.adm.own = .claiming) : exec .settleExpiry s =
    done (if s.canEvaluate then (s.onAdm fun a => { a with settle := .stopped }).requestEval true
      else (s.onAdm fun a => { a with settle := .stopped }).yieldStep) := congrArg done (if_pos ⟨on, own⟩)

/-- The lapse of a step that has claimed and not run. -/
theorem exec_lapse_due (on : s.adm.lapse.on = true) (own : s.adm.own = .claiming ∨ s.adm.own = .runPending) :
    ∃ u, Returned (s.sticky .claimLapsed) u
        (if s.adm.own = .claiming then some (.announce .wait s.ownKey s.settings.leaseLife s.ownPairs) else none)
      ∧ exec .lapseExpiry s = done (u.requestEval false) := by
  have run : exec .lapseExpiry s = done (match s.adm.own with
      | .runPending => (s.sticky .claimLapsed).lapseRunPending.requestEval false
      | .claiming => (s.sticky .claimLapsed).yieldStep.requestEval false
      | _ => s) := congrArg done (if_pos on)
  rw [run]
  rcases own with e | e <;> rw [e]
  · exact ⟨_, (s.sticky .claimLapsed).yieldStep_returned, rfl⟩
  · exact ⟨_, (s.sticky .claimLapsed).lapseRunPending_returned, rfl⟩

/-- The refresh of a step that waits or runs: its announcement placed again (R43). -/
theorem exec_refresh_due (on : s.adm.refresh.on = true) (own : s.adm.own = .waiting ∨ s.adm.own = .running) :
    exec .refreshExpiry s = done ((s.onAdm fun a => { a with refresh := .from 0 }).placeAnnounce
      (if s.adm.own = .waiting then .wait else .run) s.settings.leaseLife) := by
  have run : exec .refreshExpiry s = done (match s.adm.own with
      | .waiting => (s.onAdm fun a => { a with refresh := .from 0 }).placeAnnounce .wait s.settings.leaseLife
      | .running => (s.onAdm fun a => { a with refresh := .from 0 }).placeAnnounce .run s.settings.leaseLife
      | _ => s) := congrArg done (if_pos on)
  rw [run]
  rcases own with e | e <;> rw [e] <;> rfl

/-- While a copy is on the medium no choice is made (R157). -/
theorem State.finish_tx_copied (copy : s.tx.copyFrom ≠ none) : s.finish.tx = s.tx := by
  unfold State.finish
  rw [State.offer_of_not]
  · rfl
  · unfold State.mayOffer
    simp [copy]

/-- A slot that is replaced marks a copy of it on the medium, and leaves the content of every slot (R156). -/
theorem Selector.replaced_spec (t : Selector) (slot : SlotId) : (t.replaced slot).own = t.own
    ∧ (t.replaced slot).product = t.product ∧ (t.replaced slot).status = t.status ∧ (t.replaced slot).copyFrom = t.copyFrom
    ∧ (t.copyFrom = some slot → (t.replaced slot).marks = t.marks.put true slot) := by
  unfold Selector.replaced
  split
  · exact ⟨rfl, rfl, rfl, rfl, fun _ => rfl⟩
  · rename_i h; exact ⟨rfl, rfl, rfl, rfl, fun k => absurd k h⟩

/-- What the end of a round's suspension leaves stands through the end of the command. -/
theorem Suspended.finish {t : State} {c : Cause} (h : Suspended s t c) : Suspended s t.finish c := by
  obtain ⟨h1, h2, h3, h4, h5, h6, h7, h8⟩ := h
  exact ⟨by rwa [State.finish_seq], by rwa [State.finish_seq], by rwa [State.finish_seq], by rwa [State.finish_seq],
    by rwa [State.finish_seq], by rwa [State.finish_seq, State.finish_ver], by rwa [State.finish_seq], by rwa [State.finish_adm]⟩
end

end Sys2Proof.Machine

open Sys2Proof Sys2Proof.Machine

/-- Settles O31: each expiry by its equation; a step that returns by `Returned`, a lost lease by what `stopRun` leaves. -/
theorem ownStepTimers : Obligations.OwnStepTimers := by
  refine ⟨fun s on own => ?_, fun s on own => ?_, fun s on own => ?_, fun s early => ?_, fun s on late own => ?_⟩
  · have run := exec_settle_due on own
    have stopped := Untouched.onAdm s fun a => { a with settle := .stopped }
    by_cases can : s.canEvaluate = true
    · rw [if_pos can] at run
      have step := (s.onAdm fun a => { a with settle := .stopped }).requestEval_step true
      obtain ⟨fresh, wanted⟩ := State.requestEval_made (s := s.onAdm fun a => { a with settle := .stopped }) can
        (by show s.adm.own.evaluated = true; rw [own]; rfl) true
      refine ⟨_, run, ((stopped.mono (by decide)).trans ((Untouched.requestEval _ _).mono (by decide))).finish, ?_, ?_⟩
      · rw [State.finish_adm]; exact step.settle
      · rw [if_pos can, State.finish_adm, State.finish_own, State.finish_seq, State.requestEval_tx, State.requestEval_seq]
        refine ⟨step.own.trans own, rfl, rfl, fresh, fun k => ?_⟩
        obtain ⟨req, want, settles⟩ := wanted k
        exact ⟨req, want, settles.trans (Bool.or_true _)⟩
    · rw [if_neg can] at run
      have r := (s.onAdm fun a => { a with settle := .stopped }).yieldStep_returned
      refine ⟨_, run, ((stopped.mono (by decide)).trans r.placing.untouched).finish, ?_, ?_⟩
      · rw [State.finish_adm]; exact r.settle
      · rw [if_neg can, State.finish_adm, State.finish_own, State.finish_seq]
        exact ⟨r.own, r.sent, r.report⟩
  · obtain ⟨u, r, run⟩ := exec_lapse_due on own
    have asks := fun can => r.requests can false
    replace r := r.requestEval false
    refine ⟨_, run, (((Untouched.sticky s _).mono (by decide)).trans r.placing.untouched).finish, ?_⟩
    have flag : (u.requestEval false).finish.flag .claimLapsed = true := by
      unfold State.flag
      rw [State.finish_log]
      exact r.placing.flags .claimLapsed (by simp [State.flag, State.sticky, Log.isSet_setFlag])
    rw [State.finish_adm, State.finish_own, State.finish_seq, State.finish_updates]
    exact ⟨r.own, r.lapse, r.standing, flag, r.sent, r.placed, asks, r.report⟩
  · have run := exec_refresh_due on own
    obtain ⟨-, product, status, copyFrom, mark⟩ := s.tx.replaced_spec .own
    refine ⟨_, run, (((Untouched.onAdm s _).mono (by decide)).trans (Untouched.placeAnnounce _ _ _)).finish, ?_, ?_, ?_, ?_, fun copy => ?_⟩
    · rw [State.finish_adm]; rfl
    · rw [State.finish_own]; rfl
    · rw [State.finish_product]; exact product
    · rw [State.finish_status]; exact status
    · rw [State.finish_tx_copied]
      · exact congrArg Marks.own (mark copy)
      · show (s.tx.replaced .own).copyFrom ≠ none
        rw [copyFrom, copy]; exact nofun
  · have early' : ¬(s.adm.guard.due s.settings.guardMs = true ∧ s.adm.own = .running) := fun k => by
      have := k.1
      simp [Timer.due] at this
      omega
    exact ⟨s.finish, congrArg done (if_neg early'), (Untouched.refl _ s).finish⟩
  · have due : s.adm.guard.due s.settings.guardMs = true ∧ s.adm.own = .running := ⟨by simp [Timer.due, on, late], own⟩
    obtain ⟨gone, sent⟩ := State.stopRun_letGo (s := s) (c := .leaseLost) (by decide)
    refine ⟨(s.stopRun .leaseLost).finish, congrArg done (if_pos due), ((Placing.refl s).stopRun _).untouched.finish, ?_, ?_,
      (s.stopRun_awaits _).finish, fun tag running attempt => ?_⟩
    · rw [State.finish_adm]; exact gone
    · rw [State.finish_own]; exact sent
    · have stands : s.RunStands := ⟨own, tag, .inr running, attempt⟩
      exact (stands.suspends (stands.stopReply .leaseLost)).finish

end

section
/-! Product holds and the product-use lines (R52 to R54, R126, R156). -/

namespace Sys2Proof.Machine

/-! ### Which line a hold has its slot at -/

section
variable {s : State} {i : Fin 4} {r : Res}

theorem State.lineRes_iff : s.lineRes i = some r ↔ s.settings.prodMap[i] = some r ∧ s.settings.capacity[r] ≠ 0 := by
  unfold State.lineRes
  cases h : s.settings.prodMap[i] with
  | none => simp
  | some q =>
    dsimp only
    by_cases e : q = r
    · subst e
      by_cases absent : s.settings.capacity[q] = 0 <;> simp [absent]
    · by_cases absent : s.settings.capacity[q] = 0 <;> simp [absent, e]

theorem State.holdRes_iff : s.holdRes i = some r ↔ s.settings.prodMap[i] = some r ∧ s.settings.capacity[r] ≠ 0
    ∧ ∀ j : Fin 4, j < i → s.settings.prodMap[j] ≠ some r := by
  unfold State.holdRes
  have lower (q : Res) : (allFour.any fun j => decide (j < i ∧ s.lineRes j = some q)) = true ↔
      ∃ j : Fin 4, j < i ∧ s.lineRes j = some q := by simp [allFour]
  cases h : s.lineRes i with
  | none =>
    refine ⟨nofun, fun ⟨mapped, present, _⟩ => ?_⟩
    exact absurd (h.symm.trans (State.lineRes_iff.2 ⟨mapped, present⟩)) nofun
  | some q =>
    obtain ⟨mapped, present⟩ := State.lineRes_iff.1 h
    dsimp only
    split
    · rename_i taken
      obtain ⟨j, below, same⟩ := (lower q).1 taken
      refine ⟨nofun, fun ⟨mapped', _, lowest⟩ => ?_⟩
      have : q = r := Option.some.inj (mapped.symm.trans mapped')
      exact absurd (this ▸ (State.lineRes_iff.1 same).1) (lowest j below)
    · rename_i free
      constructor
      · intro e
        obtain rfl := Option.some.inj e
        refine ⟨mapped, present, fun j below k => free ((lower q).2 ⟨j, below, ?_⟩)⟩
        exact State.lineRes_iff.2 ⟨k, present⟩
      · rintro ⟨mapped', -⟩
        exact mapped.symm.trans mapped'

theorem State.holdWanted_iff : s.holdWanted r = true ↔ ∃ j : Fin 4, s.settings.prodMap[j] = some r ∧ s.settings.capacity[r] ≠ 0
    ∧ (s.port.prod[j]).debounced = true := by
  simp [State.holdWanted, allFour, State.lineRes_iff, and_assoc]
end

/-! ### What a judged hold places -/

/-- The own operation of a hold that begins or ends (R53, R54). -/
def State.holdTurnOp (s : State) (r : Res) : Op :=
  if s.holdWanted r then .ownInsert .product [⟨r, 255⟩] s.settings.node .held else .ownRemove .product [r]

section
variable {s : State} {i : Fin 4} {r : Res}

/-- A hold that changes places its own operation. -/
theorem State.judgeHold_awaits (slot : s.holdRes i = some r) (line : s.onLine = true)
    (changes : s.holdWanted r ≠ (s.adm.holds[i]).holding) : (s.judgeHold i).Awaits (s.holdTurnOp r) := by
  have placed (u : State) (op : Op) (f : Admission → Admission) (c) (ho : ∀ a, (f a).waiting = a.waiting) (k : u.Awaits op) :
      ((u.onAdm f).placeProduct i c).Awaits op := by
    unfold State.Awaits at k ⊢
    show _ ∈ u.updates.ops ++ (f u.adm).waiting
    rwa [ho]
  unfold State.judgeHold State.holdTurnOp
  rw [slot]
  dsimp only
  rw [if_pos line]
  cases wanted : s.holdWanted r with
  | true =>
    have quiet : (s.adm.holds[i]).holding = false := by
      rw [wanted] at changes; simpa using changes.symm
    rw [quiet, if_pos (by decide), if_pos rfl]
    exact placed _ _ _ _ (fun _ => rfl) (s.placeOp_awaits _)
  | false =>
    have holding : (s.adm.holds[i]).holding = true := by
      rw [wanted] at changes; simpa using changes.symm
    rw [holding, if_neg (by decide), if_pos (by decide), if_neg (by decide)]
    exact placed _ _ _ _ (fun _ => rfl) (s.placeOp_awaits _)

/-- Judging the holds of some lines places the operation of each that changes. -/
theorem State.judgeHolds_awaits_of (l : List (Fin 4)) (s : State) (once : l.Nodup) (i : Fin 4) (among : i ∈ l) (r : Res)
    (slot : s.holdRes i = some r) (line : s.onLine = true) (changes : s.holdWanted r ≠ (s.adm.holds[i]).holding) :
    (l.foldl State.judgeHold s).Awaits (s.holdTurnOp r) := by
  induction l generalizing s with
  | nil => cases among
  | cons j l ih =>
    rw [List.foldl_cons]
    obtain ⟨fresh, once⟩ := List.nodup_cons.1 once
    by_cases first : i = j
    · subst first
      have rest : Placing (s.judgeHold i) (l.foldl State.judgeHold (s.judgeHold i)) :=
        List.foldlRecOn (motive := fun u : State => Placing (s.judgeHold i) u) l State.judgeHold (.refl _)
          fun _ k n _ => k.judgeHold n
      exact rest.awaits (State.judgeHold_awaits slot line changes)
    · have settings := s.judgeHold_settings j
      have wanted : ∀ q, (s.judgeHold j).holdWanted q = s.holdWanted q :=
        holdWanted_congr settings (by rw [State.judgeHold_port])
      have hold : ((s.judgeHold j).adm.holds)[i] = s.adm.holds[i] := by
        rw [State.judgeHold_holds]
        cases s.holdRes j with
        | none => rfl
        | some q => exact if_neg fun k => first k.1
      have same : (s.judgeHold j).holdTurnOp r = s.holdTurnOp r := by unfold State.holdTurnOp; rw [wanted, settings]
      rw [← same]
      refine ih _ once (List.mem_of_ne_of_mem first among) ?_ ?_ ?_
      · rw [holdRes_congr settings]; exact slot
      · rw [onLine_congr (s.judgeHold_linkState j)]; exact line
      · rw [wanted]
        have : (((s.judgeHold j).adm.holds)[i]).holding = (s.adm.holds[i]).holding := by rw [hold]
        rw [this]; exact changes
theorem State.judgeHolds_awaits (slot : s.holdRes i = some r) (line : s.onLine = true)
    (changes : s.holdWanted r ≠ (s.adm.holds[i]).holding) : s.judgeHolds.Awaits (s.holdTurnOp r) :=
  State.judgeHolds_awaits_of allFour s (List.nodup_finRange 4) i (List.mem_finRange i) r slot line changes
end

/-! ### The refresh of a hold -/

section
variable {s : State} {line : Fin 4} {r : Res}

/-- A PRODUCT announcement placed again, its refresh timer from 0 (R53). -/
def State.holdRefreshed (s : State) (line : Fin 4) (r : Res) : State :=
  (s.onAdm fun a => { a with holds := modAt a.holds line fun h => { h with refresh := .from 0 } }).placeHold line r

theorem exec_productRefresh_due (slot : s.holdRes line = some r) (holding : (s.adm.holds[line]).holding = true)
    (on : (s.adm.holds[line]).refresh.on = true) : exec (.productRefreshExpiry line) s = done (s.holdRefreshed line r) := by
  have run : exec (.productRefreshExpiry line) s = done (match s.holdRes line with
      | some r => s.holdRefreshed line r
      | none => s) := congrArg done (if_pos (by rw [holding, on]; rfl))
  rw [run, slot]

theorem State.holdRefreshed_tx : (s.holdRefreshed line r).tx =
    { s.tx.replaced (.product line) with product := modAt s.tx.product line fun _ => some (.announce s.settings.leaseLife r) } := by
  unfold State.holdRefreshed State.placeHold State.placeProduct
  simp only [State.onTx_tx, State.onAdm_tx]
  rfl
end

end Sys2Proof.Machine

open Sys2Proof Sys2Proof.Machine

/-- Settles O36: each hold by `judgeHolds_spec` with the operation it places, the refresh by what placing the announcement
does to the copy, and the lines' readings by the slot of the lowest line mapped. -/
theorem productHoldsFollowTheLines : Obligations.ProductHoldsFollowTheLines := by
  refine ⟨fun line s running steady => ?_, fun line r s slot holding on => ?_, fun s r =>
    ⟨fun i => State.holdRes_iff, State.holdWanted_iff⟩⟩
  · obtain ⟨u, hu⟩ : ∃ u, u = s.onPort fun p => { p with prod := modAt p.prod line Line.settled } := ⟨_, rfl⟩
    have run : exec (.prodLineChange line) s = done u.judgeHolds := by
      rw [hu]
      exact congrArg done (if_pos (by rw [State.running_of_phase running, steady]; rfl))
    obtain ⟨each, frame, state⟩ := u.judgeHolds_spec
    obtain ⟨log, ops, own, status, step⟩ := u.judgeHolds_log
    have settled : Untouched [.port] s u := hu ▸ .onPort s _
    have settings : u.judgeHolds.finish.settings = u.settings := by
      rw [State.finish_settings]; exact frame.settings (by decide)
    have port : SamePort u.port u.judgeHolds.finish.port := frame.finish.port (by decide)
    have prod : u.judgeHolds.finish.port.prod = u.port.prod := by unfold SamePort at port; rw [port]
    refine ⟨_, run, ((settled.mono (by decide)).trans (frame.mono (by decide))).finish, ?_, ?_, ?_, ?_, ?_, ?_, ?_, fun i r slot => ?_⟩
    · rw [hu] at port ⊢; exact port
    · rw [State.finish_log, ← settled.log (by decide)]; exact log
    · rw [State.finish_updates, ← settled.updates (by decide)]; exact ops
    · rw [State.finish_own, own, hu]; rfl
    · rw [State.finish_status, status, hu]; rfl
    · rw [State.finish_adm, step.own, hu]; rfl
    · rw [State.finish_adm, step.standing, hu]; rfl
    · rw [holdRes_congr settings] at slot
      have judged := each i
      unfold State.judgedHold at judged
      rw [slot] at judged
      have adm : u.adm = s.adm := settled.adm (by decide)
      have same : u.settings = s.settings := settled.settings (by decide)
      have onLine : u.onLine = s.onLine := by rw [hu]; rfl
      rw [holdWanted_congr settings prod, State.finish_adm, State.finish_product, State.finish_updates]
      by_cases changes : s.onLine = true ∧ u.holdWanted r ≠ (s.adm.holds[i]).holding
      · have waits := State.judgeHolds_awaits slot (onLine.trans changes.1) (adm ▸ changes.2)
        unfold State.Awaits State.holdTurnOp at waits
        dsimp only at judged
        rw [onLine, adm, if_pos changes, Prod.mk.injEq, same] at judged
        rw [if_pos changes, ← same]
        exact ⟨judged.1, same ▸ judged.2, waits⟩
      · dsimp only at judged
        rw [onLine, adm, if_neg changes, Prod.mk.injEq] at judged
        rw [if_neg changes]
        exact ⟨judged.1, judged.2.trans (by rw [hu]; rfl)⟩
  · obtain ⟨own, product, status, copyFrom, mark⟩ := s.tx.replaced_spec (.product line)
    have tx := State.holdRefreshed_tx (s := s) (line := line) (r := r)
    refine ⟨_, exec_productRefresh_due slot holding on,
      (((Untouched.onAdm s _).mono (by decide)).trans ((Untouched.placeProduct _ _ _).mono (by decide))).finish, ?_, ?_, ?_,
      fun j other => ⟨?_, ?_⟩, ?_, ?_, fun copy => ?_⟩
    · rw [State.finish_adm]
      show (modAt s.adm.holds line _)[line] = _
      rw [modAt_get, if_pos rfl, holding]
    · rw [State.finish_adm]; rfl
    · rw [State.finish_product, tx]
      show (modAt s.tx.product line _)[line] = _
      rw [modAt_get, if_pos rfl]
    · rw [State.finish_adm]
      show (modAt s.adm.holds line _)[j] = _
      rw [modAt_get, if_neg other]
    · rw [State.finish_product, tx]
      show (modAt s.tx.product line _)[j] = _
      rw [modAt_get, if_neg other]
    · rw [State.finish_own, tx]; exact own
    · rw [State.finish_status, tx]; exact status
    · have copied : (s.holdRefreshed line r).tx.copyFrom = some (.product line) := by rw [tx]; exact copyFrom.trans copy
      rw [State.finish_tx_copied (by rw [copied]; exact nofun), tx]
      show ((s.tx.replaced (.product line)).marks).product[line] = true
      rw [mark copy]
      show (modAt s.tx.marks.product line _)[line] = _
      rw [modAt_get, if_pos rfl]

end

section
/-! What loading an image leaves: the settings kept, and when CLAMPED is set (R61 to R65, R179, R190). -/

namespace Sys2Proof.Machine

/-! ### Bytes of a part of the image -/

theorem byteAt_lt (bs : List Byte) (k : Nat) : byteAt 255 bs k < 256 := by
  unfold byteAt
  cases bs[k]? with
  | none => decide
  | some b => exact b.isLt

/-- A byte of a part of a string is a byte of the string. -/
theorem byteAt_part {bs : List Byte} {start length k : Nat} (h : k < length) :
    byteAt 255 ((bs.drop start).take length) k = byteAt 255 bs (start + k) := by
  unfold byteAt
  rw [List.getElem?_take_of_lt h, List.getElem?_drop]

theorem byteAt_drop {bs : List Byte} {start k : Nat} : byteAt 255 (bs.drop start) k = byteAt 255 bs (start + k) := by
  unfold byteAt
  rw [List.getElem?_drop]

/-- The seven bytes of conversion set n (R190). -/
def convBytes (bytes : List Byte) (n : Fin 4) : List Byte := ((bytes.drop 41).drop (7 * n.val)).take 7

/-- The bytes of recipe slot i (R190). -/
def slotBytes (bytes : List Byte) (i : Fin 4) : List Byte := ((bytes.drop 69).drop (642 * i.val)).take 642

/-- The bytes of step record j of slot i (R190). -/
def stepBytes (bytes : List Byte) (i : Fin 4) (j : Fin 20) : List Byte := ((slotBytes bytes i).drop (2 + 32 * j.val)).take 32

section
variable {bytes : List Byte} {k : Nat}

theorem byteAt_convBytes (n : Fin 4) (h : k < 7) : byteAt 255 (convBytes bytes n) k = convByte bytes n k := by
  unfold convBytes convByte
  rw [byteAt_part h, byteAt_drop, Nat.add_assoc]

theorem byteAt_slotBytes (i : Fin 4) (h : k < 642) : byteAt 255 (slotBytes bytes i) k = slotByte bytes i k := by
  unfold slotBytes slotByte
  rw [byteAt_part h, byteAt_drop, Nat.add_assoc]

theorem byteAt_stepBytes (i : Fin 4) (j : Fin 20) (h : k < 32) :
    byteAt 255 (stepBytes bytes i j) k = stepByte bytes i j k := by
  unfold stepBytes stepByte
  rw [byteAt_part h, byteAt_slotBytes i (by omega)]

theorem wordAt_convBytes (n : Fin 4) (h : k + 1 < 7) : wordAt 255 (convBytes bytes n) k = convWord bytes n k := by
  unfold wordAt convWord
  rw [byteAt_convBytes n (by omega), byteAt_convBytes n h]

theorem wordAt_stepBytes (i : Fin 4) (j : Fin 20) (h : k + 1 < 32) :
    wordAt 255 (stepBytes bytes i j) k = stepWord bytes i j k := by
  unfold wordAt stepWord
  rw [byteAt_stepBytes i j (by omega), byteAt_stepBytes i j h]
end

/-! ### Clamping -/

/-- A value was clamped exactly where it lay outside the range. -/
theorem clampTo_changed {low high : Nat} (n : Nat) (h : low ≤ high) : (clampTo low high n).2 = true ↔ n < low ∨ high < n := by
  simp only [clampTo, bne_iff_ne]
  omega

theorem readConvSet_clamped {bytes : List Byte} (n : Fin 4) : (readConvSet (convBytes bytes n)).2 = true ↔
    30 < convByte bytes n 0 ∨ 1000 < convWord bytes n 1 ∨ 9999 < convWord bytes n 3 ∨ 9999 < convWord bytes n 5 := by
  simp only [readConvSet, Bool.or_eq_true, clampTo_changed _ (Nat.zero_le _), Nat.not_lt_zero, false_or, or_assoc,
    byteAt_convBytes n (show 0 < 7 by decide), wordAt_convBytes n (show 1 + 1 < 7 by decide),
    wordAt_convBytes n (show 3 + 1 < 7 by decide), wordAt_convBytes n (show 5 + 1 < 7 by decide)]

/-- Some field of a step lies outside the range to which R64 or R65 clamps it. -/
def Step.OutOfRange (st : Step) : Prop :=
  st.contact = 0 ∨ 7200 < st.contact ∨ st.repeats = 0 ∨ 16 < st.repeats ∨ 600 < st.pauseTime ∨ st.limit < 10
    ∨ 14400 < st.limit ∨ st.limit < min st.contact 7200 ∨ 1500 < st.tmin ∨ 500 < st.span ∨ 1000 < st.fmin
    ∨ st.convSet ≠ .none ∧ (9999 < st.cmin ∨ 9999 < st.cmax)

/-- Clamping changes a step exactly where a field is out of range. -/
theorem Step.clamp_ne_iff (st : Step) : st.clamp ≠ st ↔ st.OutOfRange := by
  have fields : st.clamp = st ↔ max 1 (min st.contact 7200) = st.contact ∧ max 1 (min st.repeats 16) = st.repeats
      ∧ min st.pauseTime 600 = st.pauseTime ∧ max (max 10 (min st.limit 14400)) (max 1 (min st.contact 7200)) = st.limit
      ∧ min st.tmin 1500 = st.tmin ∧ min st.span 500 = st.span ∧ min st.fmin 1000 = st.fmin
      ∧ (if st.convSet = .none then st.cmin else min st.cmin 9999) = st.cmin
      ∧ (if st.convSet = .none then st.cmax else min st.cmax 9999) = st.cmax := by
    cases st
    simp only [Step.clamp, Step.clampMeasures, Step.clampTimes, clampTo, Step.mk.injEq, true_and, and_true]
    constructor
    · rintro ⟨tmin, span, cmin, cmax, fmin, contact, limit, repeats, pause⟩
      exact ⟨contact, repeats, pause, limit, tmin, span, fmin, cmin, cmax⟩
    · rintro ⟨contact, repeats, pause, limit, tmin, span, fmin, cmin, cmax⟩
      exact ⟨tmin, span, cmin, cmax, fmin, contact, limit, repeats, pause⟩
  rw [ne_eq, fields]
  unfold Step.OutOfRange
  by_cases unset : st.convSet = .none
  · rw [if_pos unset, if_pos unset]
    simp only [unset, ne_eq, not_true_eq_false, false_and, or_false, and_true]
    omega
  · rw [if_neg unset, if_neg unset]
    simp only [ne_eq, unset, not_false_eq_true, true_and]
    omega

/-! ### The final index and the steps in use -/

/-- A step stands at or before the final index exactly where it is among the first `count` and none before it has LAST set. -/
theorem le_finalIndexOf {count : Nat} {steps : Vector Step 20} (some' : 0 < count) (most : count ≤ 20) (j : Fin 20) :
    j ≤ finalIndexOf count steps ↔ j.val < count ∧ ∀ k : Fin 20, k < j → steps[k].last = false := by
  unfold finalIndexOf
  cases found : (List.finRange 20).find? fun i => decide (i.val < count) && steps[i].last with
  | none =>
    have none' : ∀ k : Fin 20, k.val < count → steps[k].last = false := by
      simpa [List.find?_eq_none] using found
    have final : (Fin.ofNat 20 (count - 1)).val = count - 1 := Nat.mod_eq_of_lt (by omega)
    rw [Option.getD_none, Fin.le_def, final]
    exact ⟨fun le => ⟨by omega, fun k below => none' k (by omega)⟩, fun in' => by omega⟩
  | some f =>
    obtain ⟨last, n, len, at', before⟩ := List.find?_eq_some_iff_getElem.1 found
    rw [Bool.and_eq_true, decide_eq_true_eq] at last
    rw [List.getElem_finRange] at at'
    have place : f.val = n := by rw [← at']; rfl
    rw [Option.getD_some]
    constructor
    · intro le
      refine ⟨by omega, fun k below => ?_⟩
      have earlier := before k.val (by omega)
      rw [List.getElem_finRange] at earlier
      have small : k.val < count := by omega
      simpa [small] using earlier
    · rintro ⟨-, clear⟩
      by_contra beyond
      have := clear f (by omega)
      rw [last.2] at this
      cases this

/-! ### CLAMPED of a recipe -/

/-- Validation clamped a recipe exactly where its base urgency, or a field of a step at or before its final index, was out of range. -/
theorem validateRecipe_clamped (c : Settings) (sets : Vector ConvSet 4) (r : Recipe) :
    (validateRecipe c sets r).clamped = true ↔ 62 < r.baseUrgency ∨
      (0 < r.stepCount ∧ r.stepCount ≤ 20) ∧ ∃ j : Fin 20, j ≤ finalIndexOf r.stepCount r.steps ∧ (r.steps[j]).OutOfRange := by
  have urgency : (r.baseUrgency != min r.baseUrgency 62) = true ↔ 62 < r.baseUrgency := by
    rw [bne_iff_ne]; omega
  have steps (final : Fin 20) :
      ((Vector.ofFn fun i : Fin 20 => if i ≤ final then r.steps[i].clamp else r.steps[i]) != r.steps) = true ↔
        ∃ j : Fin 20, j ≤ final ∧ (r.steps[j]).OutOfRange := by
    rw [bne_iff_ne, ne_eq, Vector.ext_iff, not_forall]
    simp only [Vector.getElem_ofFn, not_forall]
    constructor
    · rintro ⟨n, small, changed⟩
      by_cases le : (⟨n, small⟩ : Fin 20) ≤ final
      · rw [if_pos le] at changed
        exact ⟨⟨n, small⟩, le, (Step.clamp_ne_iff _).1 changed⟩
      · rw [if_neg le] at changed
        exact absurd rfl changed
    · rintro ⟨j, le, out⟩
      refine ⟨j.val, j.isLt, ?_⟩
      rw [if_pos le]
      exact (Step.clamp_ne_iff _).2 out
  unfold validateRecipe
  by_cases bad : r.stepCount = 0 ∨ 20 < r.stepCount
  · have : ¬ (0 < r.stepCount ∧ r.stepCount ≤ 20) := by omega
    simp only [if_pos bad, urgency, this, false_and, or_false]
  · have count : 0 < r.stepCount ∧ r.stepCount ≤ 20 := by omega
    simp only [if_neg bad, count, and_self, true_and]
    rw [← steps, ← urgency, ← Bool.or_eq_true]
    split <;> rfl

section
variable {bytes : List Byte}

theorem setRefByte_eq_none {n : Nat} : setRefByte n = .none ↔ n = 255 := by
  unfold setRefByte
  by_cases unset : n = 255
  · simp [unset]
  · by_cases named : n < 4 <;> simp [unset, named]

/-- A step record reads out of range exactly where its bytes say so (R64, R65, R190). -/
theorem readStep_outOfRange (i : Fin 4) (j : Fin 20) : (readStep (stepBytes bytes i j)).OutOfRange ↔ StepOutOfRange bytes i j := by
  simp only [Step.OutOfRange, StepOutOfRange, readStep, ne_eq, setRefByte_eq_none,
    byteAt_stepBytes i j (show 11 < 32 by decide), byteAt_stepBytes i j (show 27 < 32 by decide),
    wordAt_stepBytes i j (show 12 + 1 < 32 by decide), wordAt_stepBytes i j (show 14 + 1 < 32 by decide),
    wordAt_stepBytes i j (show 16 + 1 < 32 by decide), wordAt_stepBytes i j (show 18 + 1 < 32 by decide),
    wordAt_stepBytes i j (show 20 + 1 < 32 by decide), wordAt_stepBytes i j (show 22 + 1 < 32 by decide),
    wordAt_stepBytes i j (show 25 + 1 < 32 by decide), wordAt_stepBytes i j (show 28 + 1 < 32 by decide)]

/-- LAST is the lowest bit of a record's flag byte (R190). -/
theorem readStep_last (i : Fin 4) (j : Fin 20) : (readStep (stepBytes bytes i j)).last = false ↔ stepByte bytes i j 31 % 2 = 0 := by
  have bit : (readStep (stepBytes bytes i j)).last = (BitVec.ofNat 8 (stepByte bytes i j 31)).getLsbD 0 := by
    rw [← byteAt_stepBytes i j (show 31 < 32 by decide)]; rfl
  rw [bit, BitVec.getLsbD_ofNat]
  simp

/-- A recipe of the image reads out of range exactly where its base urgency does or a step in use does (R62 to R65). -/
theorem recipe_clamped (c : Settings) (sets : Vector ConvSet 4) (i : Fin 4) :
    (validateRecipe c sets (readRecipe (slotBytes bytes i))).clamped = true ↔
      62 < slotByte bytes i 1 ∨ ∃ j : Fin 20, StepInUse bytes i j ∧ StepOutOfRange bytes i j := by
  obtain ⟨r, hr⟩ : ∃ r, r = readRecipe (slotBytes bytes i) := ⟨_, rfl⟩
  have count : r.stepCount = slotByte bytes i 0 := by rw [hr, ← byteAt_slotBytes i (by decide)]; rfl
  have base : r.baseUrgency = slotByte bytes i 1 := by rw [hr, ← byteAt_slotBytes i (by decide)]; rfl
  have step (j : Fin 20) (h : j.val < slotByte bytes i 0) : r.steps[j] = readStep (stepBytes bytes i j) := by
    have read : r.steps[j] = if j.val < r.stepCount then readStep (stepBytes bytes i j) else Step.empty := by
      rw [hr]
      simp only [readRecipe, Fin.getElem_fin, Vector.getElem_ofFn]
      rfl
    rw [read, if_pos (count ▸ h)]
  have inUse (j : Fin 20) : ((0 < r.stepCount ∧ r.stepCount ≤ 20) ∧ j ≤ finalIndexOf r.stepCount r.steps) ↔ StepInUse bytes i j := by
    unfold StepInUse
    rw [count]
    constructor
    · rintro ⟨⟨some', most⟩, le⟩
      obtain ⟨within, clear⟩ := (le_finalIndexOf some' most j).1 le
      refine ⟨most, within, fun k below => (readStep_last i k).1 ?_⟩
      rw [← step k (by omega)]
      exact clear k below
    · rintro ⟨most, within, clear⟩
      refine ⟨⟨by omega, most⟩, (le_finalIndexOf (by omega) most j).2 ⟨within, fun k below => ?_⟩⟩
      rw [step k (by omega)]
      exact (readStep_last i k).2 (clear k below)
  rw [← hr, validateRecipe_clamped, base]
  refine or_congr_right ⟨?_, ?_⟩
  · rintro ⟨counted, j, le, out⟩
    have used := (inUse j).1 ⟨counted, le⟩
    rw [step j used.2.1] at out
    exact ⟨j, used, (readStep_outOfRange i j).1 out⟩
  · rintro ⟨j, used, out⟩
    obtain ⟨counted, le⟩ := (inUse j).2 used
    refine ⟨counted, j, le, ?_⟩
    rw [step j used.2.1]
    exact (readStep_outOfRange i j).2 out
end

/-! ### The settings and the image -/

theorem lineByte_val (n : Nat) : (lineByte n).map (·.val) = if n < 12 then some n else none := by
  unfold lineByte
  split <;> rfl

theorem resourceOf_val (n : Nat) : (resourceOf n).map (·.val) = if n < 16 then some n else none := by
  unfold resourceOf
  split <;> rfl

/-- A setting was clamped exactly where its byte lay outside its range, or a map or divert byte named no line and not none (R179). -/
theorem readSettings_clamped (bytes : List Byte) (b : Nat → Nat) (hb : b = byteAt 255 bytes) : (readSettings bytes).2 = true ↔
    2 < b 6 ∨ b 7 = 0 ∨ 10 < b 7 ∨ b 8 < 2 ∨ 20 < b 8 ∨ b 9 * 256 + b 10 < 10 ∨ 600 < b 9 * 256 + b 10
      ∨ 2 < b 11 ∨ b 12 < 2 ∨ 20 < b 12 ∨ b 13 = 0 ∨ 120 < b 13 ∨ b 14 = 0 ∨ 60 < b 14 ∨ 3 < b 15 ∨ 3 < b 16
      ∨ 1 < b 17 ∨ (∃ r : Res, 250 < b (18 + r.val)) ∨ (∃ i : Fin 4, 15 < b (34 + i.val) ∧ b (34 + i.val) ≠ 255)
      ∨ 11 < b 40 ∧ b 40 ≠ 255 := by
  subst hb
  simp only [readSettings, wordAt, Bool.or_eq_true, clampTo_changed _ (Nat.zero_le _), Nat.not_lt_zero, false_or,
    clampTo_changed _ (show 1 ≤ 10 by decide), clampTo_changed _ (show 2 ≤ 20 by decide), clampTo_changed _ (show 10 ≤ 600 by decide),
    clampTo_changed _ (show 1 ≤ 120 by decide), clampTo_changed _ (show 1 ≤ 60 by decide), Nat.lt_one_iff, or_assoc,
    List.any_eq_true, allRes, allFour, List.mem_finRange, true_and, decide_eq_true_eq, Fin.getElem_fin, Vector.getElem_ofFn]

/-- What each byte of the node-wide settings becomes (R178, R179, R190). -/
structure SettingsRead (b : Nat → Nat) (c : Settings) : Prop where
  rateCode : c.rateCode = min (b 6) 2
  refresh : c.refresh = max 1 (min (b 7) 10)
  settle : c.settle = max 2 (min (b 8) 20)
  aging : c.aging = max 10 (min (b 9 * 256 + b 10) 600)
  sampleCode : c.sampleCode = min (b 11) 2
  sensorLimit : c.sensorLimit = max 2 (min (b 12) 20)
  suspendLimit : c.suspendLimit = max 1 (min (b 13) 120)
  statusPeriod : c.statusPeriod = max 1 (min (b 14) 60)
  wBCode : c.wBCode = min (b 15) 3
  wCCode : c.wCCode = min (b 16) 3
  policy : c.policy = .dropOldest ↔ b 17 = 0
  capacity : ∀ r : Res, c.capacity[r] = min (b (18 + r.val)) 250
  prodMap : ∀ i : Fin 4, (c.prodMap[i]).map (·.val) = if b (34 + i.val) < 16 then some (b (34 + i.val)) else none
  divertLine : c.divertLine.map (·.val) = if b 40 < 12 then some (b 40) else none

theorem readSettings_read (bytes : List Byte) : SettingsRead (byteAt 255 bytes) (readSettings bytes).1 where
  rateCode := Nat.zero_max _
  refresh := rfl
  settle := rfl
  aging := rfl
  sampleCode := Nat.zero_max _
  sensorLimit := rfl
  suspendLimit := rfl
  statusPeriod := rfl
  wBCode := Nat.zero_max _
  wCCode := Nat.zero_max _
  policy := by
    have value : (readSettings bytes).1.policy = if (clampTo 0 1 (byteAt 255 bytes 17)).1 = 0 then .dropOldest else .holdRounds := rfl
    have zero : (clampTo 0 1 (byteAt 255 bytes 17)).1 = 0 ↔ byteAt 255 bytes 17 = 0 := by
      simp only [clampTo]; omega
    rw [value]
    split
    · exact iff_of_true rfl (zero.1 ‹_›)
    · exact iff_of_false nofun (mt zero.2 ‹_›)
  capacity r := by
    simp only [readSettings, Fin.getElem_fin, Vector.getElem_ofFn, clampTo, Nat.zero_max]
  prodMap i := by
    simp only [readSettings, Fin.getElem_fin, Vector.getElem_ofFn, resourceOf_val]
  divertLine := lineByte_val _

/-- The ranges of the settings read (R178, R179). -/
theorem SettingsRead.ranges {b : Nat → Nat} {c : Settings} (read : SettingsRead b c) :
    c.rateCode ≤ 2 ∧ (1 ≤ c.refresh ∧ c.refresh ≤ 10) ∧ (2 ≤ c.settle ∧ c.settle ≤ 20) ∧ (10 ≤ c.aging ∧ c.aging ≤ 600)
      ∧ c.sampleCode ≤ 2 ∧ (2 ≤ c.sensorLimit ∧ c.sensorLimit ≤ 20) ∧ (1 ≤ c.suspendLimit ∧ c.suspendLimit ≤ 120)
      ∧ (1 ≤ c.statusPeriod ∧ c.statusPeriod ≤ 60) ∧ c.wBCode ≤ 3 ∧ c.wCCode ≤ 3 := by
  rw [read.rateCode, read.refresh, read.settle, read.aging, read.sampleCode, read.sensorLimit, read.suspendLimit,
    read.statusPeriod, read.wBCode, read.wCCode]
  have within (low high n : Nat) (h : low ≤ high) : low ≤ max low (min n high) ∧ max low (min n high) ≤ high := by omega
  exact ⟨Nat.min_le_right _ _, within 1 10 _ (by decide), within 2 20 _ (by decide), within 10 600 _ (by decide),
    Nat.min_le_right _ _, within 2 20 _ (by decide), within 1 120 _ (by decide), within 1 60 _ (by decide), Nat.min_le_right _ _,
    Nat.min_le_right _ _⟩

/-- The lives that announcements carry (R26). -/
theorem Settings.lives (c : Settings) : c.lapseLife = 4 * c.settle ∧ c.leaseLife = 15 * c.refresh := by
  simp only [Settings.lapseLife, Settings.lapseMs, Settings.settleMs, Settings.leaseLife, Settings.refreshMs]
  omega

/-- The sample period by its code (R178). -/
theorem Settings.sampleMs_cases (c : Settings) (most : c.sampleCode ≤ 2) : c.sampleCode = 0 ∧ c.sampleMs = 250
    ∨ c.sampleCode = 1 ∧ c.sampleMs = 500 ∨ c.sampleCode = 2 ∧ c.sampleMs = 1000 := by
  unfold Settings.sampleMs
  obtain code | code | code : c.sampleCode = 0 ∨ c.sampleCode = 1 ∨ c.sampleCode = 2 := by omega
  · exact .inl ⟨code, by rw [code]; rfl⟩
  · exact .inr (.inl ⟨code, by rw [code]; rfl⟩)
  · exact .inr (.inr ⟨code, by rw [code]; rfl⟩)

/-- CLAMPED is set exactly where a setting, a conversion set or a recipe was clamped (R61, R63, R179). -/
theorem loadImage_clamped (bytes : List Byte) : (loadImage bytes).clamped = true ↔ (readSettings bytes).2 = true
    ∨ (∃ n : Fin 4, (readConvSet (convBytes bytes n)).2 = true)
    ∨ ∃ i : Fin 4, 62 < slotByte bytes i 1 ∨ ∃ j : Fin 20, StepInUse bytes i j ∧ StepOutOfRange bytes i j := by
  simp only [loadImage, Bool.or_eq_true, List.any_eq_true, allFour, List.mem_finRange, true_and, Fin.getElem_fin,
    Vector.getElem_ofFn, or_assoc, ← recipe_clamped (readSettings bytes).1 (Vector.ofFn fun i => (readConvSet (convBytes bytes i)).1)]
  rfl

end Sys2Proof.Machine

open Sys2Proof Sys2Proof.Machine

/-- Settles O57: the settings by what clamping makes of each byte, CLAMPED by what clamps a setting, a set and a recipe. -/
theorem loadedSettingsInRange : Obligations.LoadedSettingsInRange := by
  intro bytes
  obtain ⟨c, hc⟩ : ∃ c, c = (readSettings bytes).1 := ⟨_, rfl⟩
  have read : SettingsRead (byteAt 255 bytes) c := hc ▸ readSettings_read bytes
  have node : c.node = byteAt 255 bytes 4 := by rw [hc]; rfl
  have groups : c.groups.toNat = byteAt 255 bytes 5 := by
    rw [hc]
    exact (BitVec.toNat_ofNat ..).trans (Nat.mod_eq_of_lt (byteAt_lt bytes 5))
  have rest : c.rest.toNat = wordAt 255 bytes 38 % 4096 := by rw [hc]; exact BitVec.toNat_ofNat ..
  obtain ⟨lapse, lease⟩ := c.lives
  obtain ⟨rate, ⟨refreshLow, refreshHigh⟩, ⟨settleLow, settleHigh⟩, ⟨agingLow, agingHigh⟩, sample, ⟨sensorLow, sensorHigh⟩,
    ⟨suspendLow, suspendHigh⟩, ⟨statusLow, statusHigh⟩, wB, wC⟩ := read.ranges
  have lapseRange : 8 ≤ c.lapseLife ∧ c.lapseLife ≤ 80 := by rw [lapse]; omega
  have leaseRange : 15 ≤ c.leaseLife ∧ c.leaseLife ≤ 150 := by rw [lease]; omega
  refine ⟨c, hc.symm, rate, refreshLow, refreshHigh, settleLow, settleHigh, agingLow, agingHigh, sample, sensorLow, sensorHigh,
    suspendLow, suspendHigh, statusLow, statusHigh, wB, wC, fun r => read.capacity r ▸ Nat.min_le_right _ _, lapseRange, leaseRange,
    rfl, rfl, node, groups, rest, ?_⟩
  rintro b rfl
  refine ⟨read.rateCode, read.refresh, read.settle, read.aging, read.sampleCode, read.sensorLimit, read.suspendLimit,
    read.statusPeriod, read.wBCode, read.wCCode, read.policy, read.capacity, read.prodMap, read.divertLine, Nat.mul_comm _ _,
    Nat.mul_comm _ _, Nat.mul_comm _ _, c.sampleMs_cases sample, Nat.mul_comm _ _, Nat.mul_comm _ _, lapse, lease, rfl, rfl, ?_⟩
  rw [loadImage_clamped, readSettings_clamped bytes _ rfl, exists_or]
  simp only [readConvSet_clamped, or_assoc]

end

section
/-! What the round does with the reports of a sample (R82 to R86, R88, R108, R117, R121 to R124). -/

namespace Sys2Proof.Machine

/-! ### The sample taken and the report handed on -/

/-- What the round sequencer makes of a report of the verifier (R82, R84). -/
def State.reported (s : State) : VerReport → State
  | .nothing => s
  | .burstComplete => s.burstComplete
  | .sensorLost => s.sensorLostReport

/-- The exchange over, with its absent count and silent condition, and the sample taken; its report is not yet acted on (R97, R121 to R124). -/
def State.sampled (s : State) (e : SampleEffect) (n : Nat) (silent : Bool) : State :=
  (((s.onPort fun p => { p.endExchange with absent := n, silent := silent }).stickyIf silent .frontendSilent).onVer
    fun _ => e.ver).stickyIf e.sensorAbsent .sensorAbsent

theorem State.takeSample_reported (s : State) (x : Sample) (e : SampleEffect)
    (he : e = s.ver.takeSample s.settings.sampleMs s.settings.sensorLimit s.curStep (s.convSet s.curStep) x) :
    s.takeSample x = ((s.onVer fun _ => e.ver).stickyIf e.sensorAbsent .sensorAbsent).reported e.report := by
  subst he
  rfl

section
variable {s : State} {c : Instr} {x : Sample} {n : Nat} {silent : Bool} {e : SampleEffect}

/-- A command that ends the exchange hands the verifier its sample, and the round the verifier's report. -/
theorem exec_endsExchange (running : s.loader.phase = .running) (awaiting : s.port.exchange = .awaiting)
    (ends : s.EndsExchange c x n silent)
    (he : e = s.ver.takeSample s.settings.sampleMs s.settings.sensorLimit s.curStep (s.convSet s.curStep) x) :
    exec c s = done ((s.sampled e n silent).reported e.report) := by
  have due : s.isRunning = true ∧ s.port.exchange = .awaiting := ⟨State.running_of_phase running, awaiting⟩
  have taken (silent : Bool) (x : Sample) (n : Nat)
      (he : e = s.ver.takeSample s.settings.sampleMs s.settings.sensorLimit s.curStep (s.convSet s.curStep) x) :
      (((s.onPort fun p => { p.endExchange with absent := n, silent := silent }).stickyIf silent .frontendSilent).takeSample x) =
        (s.sampled e n silent).reported e.report := by
    refine State.takeSample_reported _ x e (he.trans ?_)
    cases silent <;> rfl
  obtain ⟨⟨bytes, rfl, good, number, rfl⟩, rfl, rfl⟩ | ⟨unanswered, rfl, rfl, rfl⟩ := ends
  · have valid : exec (.sampleReply bytes) s = done (s.validReply bytes) :=
      congrArg done ((if_pos due).trans ((if_pos good).trans (if_pos number)))
    exact valid.trans (congrArg done (taken false _ 0 he))
  · have quiet : exec c s = done s.noReply := by
      obtain rfl | ⟨bytes, rfl, bad⟩ := unanswered
      · exact congrArg done (if_pos due)
      · exact congrArg done ((if_pos due).trans (if_neg (by rw [bad]; decide)))
    exact quiet.trans (congrArg done (taken _ _ _ he))
end

theorem State.finish_flag (s : State) (f : Sticky) : s.finish.flag f = s.flag f := by unfold State.flag; rw [State.finish_log]

/-- What is as it was, or as the sample left it, when the round acts on the report. -/
structure ReportsTo (s u : State) (v : Verifier) : Prop where
  seq : u.seq = s.seq
  ver : u.ver = v
  store : u.store = s.store
  settings : u.settings = s.settings
  adm : u.adm = s.adm
  tx : u.tx = s.tx
  records : SameRecords s.log u.log

theorem State.stickyIf_records (s : State) (c : Bool) (f : Sticky) : SameRecords s.log (s.stickyIf c f).log := by
  cases c
  · exact .refl _
  · exact .setFlag _ _

theorem State.sampled_reports (s : State) (e : SampleEffect) (n : Nat) (silent : Bool) : ReportsTo s (s.sampled e n silent) e.ver := by
  have parts : (s.sampled e n silent).seq = s.seq ∧ (s.sampled e n silent).ver = e.ver ∧ (s.sampled e n silent).store = s.store
      ∧ (s.sampled e n silent).settings = s.settings ∧ (s.sampled e n silent).adm = s.adm ∧ (s.sampled e n silent).tx = s.tx := by
    unfold State.sampled
    cases silent <;> cases e.sensorAbsent <;> exact ⟨rfl, rfl, rfl, rfl, rfl, rfl⟩
  obtain ⟨seq, ver, store, settings, adm, tx⟩ := parts
  have silence := State.stickyIf_records (s.onPort fun p => { p.endExchange with absent := n, silent := silent }) silent .frontendSilent
  exact ⟨seq, ver, store, settings, adm, tx, silence.trans
    (State.stickyIf_records (State.onVer _ fun _ => e.ver) e.sensorAbsent .sensorAbsent)⟩

theorem State.sampled_flags (s : State) (e : SampleEffect) (n : Nat) (silent : Bool) :
    (e.sensorAbsent = true → (s.sampled e n silent).flag .sensorAbsent = true)
    ∧ (silent = true → (s.sampled e n silent).flag .frontendSilent = true) := by
  refine ⟨fun absent => (State.stickyIf_flag _ _ _).2 (.inr absent), fun quiet => ?_⟩
  have set := (State.stickyIf_flag (s.onPort fun p => { p.endExchange with absent := n, silent := silent }) silent .frontendSilent).2
    (.inr quiet)
  exact (State.stickyIf_flag_other (State.onVer _ _) e.sensorAbsent (by decide)).trans set

theorem Placing.reported (s : State) (r : VerReport) : Placing s (s.reported r) := by
  cases r with
  | nothing => exact .refl s
  | burstComplete => exact (Placing.refl s).burstComplete
  | sensorLost => exact (Placing.refl s).sensorLostReport

/-! ### The end of the attempt -/

section
variable {s u t : State} {v : Verifier}

theorem ReportsTo.curStep (h : ReportsTo s u v) : u.curStep = s.curStep :=
  State.curStep_congr h.store (by rw [h.seq]) (by rw [h.seq])

theorem State.stepAt_congr (store : u.store = s.store) (slot : u.seq.slot = s.seq.slot) (i : Fin 20) : u.stepAt i = s.stepAt i := by
  simp [State.stepAt, store, slot]

theorem State.lastIndex_congr (store : u.store = s.store) (slot : u.seq.slot = s.seq.slot) (ends : u.seq.endIndex = s.seq.endIndex) :
    u.lastIndex = s.lastIndex := by
  simp [State.lastIndex, store, slot, ends]

theorem Suspended.congr {c : Cause} (h : Suspended u t c) (seq : u.seq = s.seq) (step : u.curStep = s.curStep) : Suspended s t c := by
  obtain ⟨h1, h2, h3, h4, h5, h6, h7, h8⟩ := h
  rw [seq] at h2 h7
  rw [step] at h8
  exact ⟨h1, h2, h3, h4, h5, h6, h7, h8⟩

/-- The attempt ended DONE, its result handed to the record; the round has not yet gone on (R85). -/
def State.doneAttempt (s : State) : State :=
  ((s.endAttempt .done).stickyIf s.curStep.mark .stepMark).onSeq fun q => { q with stepTimer := .stopped }

/-- What an attempt ended DONE leaves, judged from the state whose sample completed it. -/
structure DoneAttempt (s t : State) (v : Verifier) : Prop where
  seq : t.seq = { s.seq with attemptOpen := false, stepTimer := .stopped }
  off : t.ver = { v with mode := .off }
  store : t.store = s.store
  settings : t.settings = s.settings
  adm : t.adm = s.adm
  comp : t.log.comp = s.log.comp.map fun x => { x with record := x.record.addResult (v.result s.seq.pointer .done) }
  queue : t.log.queue = s.log.queue
  mark : s.curStep.mark = true → t.log.isSet .stepMark = true

theorem ReportsTo.doneAttempt (h : ReportsTo s u v) (opened : s.seq.attemptOpen = true) : DoneAttempt s u.doneAttempt v := by
  obtain ⟨frame, seq, ver, log⟩ := u.endAttempt_spec .done
  unfold State.doneAttempt
  rw [h.curStep]
  generalize u.endAttempt .done = w at *
  rw [h.seq] at seq ver log
  rw [if_pos opened] at ver log
  have records := w.stickyIf_records s.curStep.mark .stepMark
  have rest := Untouched.stickyIf w s.curStep.mark .stepMark
  have marked : s.curStep.mark = true → (w.stickyIf s.curStep.mark .stepMark).flag .stepMark = true := fun mark =>
    (State.stickyIf_flag _ _ _).2 (.inr mark)
  generalize w.stickyIf s.curStep.mark .stepMark = m at *
  refine ⟨?_, ?_, ?_, ?_, ?_, ?_, ?_, marked⟩
  · rw [State.onSeq_seq, rest.seq (by decide), seq]
  · rw [State.onSeq_ver, rest.ver (by decide), ver, h.ver]
  · rw [State.onSeq_store, rest.store (by decide), frame.store (by decide), h.store]
  · rw [State.onSeq_settings, rest.settings (by decide), frame.settings (by decide), h.settings]
  · rw [State.onSeq_adm, rest.adm (by decide), frame.adm (by decide), h.adm]
  · rw [State.onSeq_log, records.comp, log, h.ver]
    show u.log.comp.map _ = _
    rw [h.records.comp]
  · rw [State.onSeq_log, records.queue, log]
    exact h.records.queue

theorem DoneAttempt.curStep (h : DoneAttempt s t v) : t.curStep = s.curStep :=
  State.curStep_congr h.store (by rw [h.seq]) (by rw [h.seq])
theorem DoneAttempt.stepAt (h : DoneAttempt s t v) (i : Fin 20) : t.stepAt i = s.stepAt i :=
  State.stepAt_congr h.store (by rw [h.seq]) i
theorem DoneAttempt.lastIndex (h : DoneAttempt s t v) : t.lastIndex = s.lastIndex :=
  State.lastIndex_congr h.store (by rw [h.seq]) (by rw [h.seq])
theorem DoneAttempt.baseUrgency (h : DoneAttempt s t v) : t.baseUrgency = s.baseUrgency :=
  State.baseUrgency_congr h.store (by rw [h.seq])

/-! ### What a completed burst does -/

theorem State.burstComplete_last (acts : s.seq.state = .running ∧ s.seq.phase = .burst) (spent : s.seq.repeats ≤ 1) :
    s.burstComplete = (s.onVer Verifier.lastRepetition).attemptDone :=
  (if_pos acts).trans (if_neg (by omega))

theorem State.burstComplete_pause (acts : s.seq.state = .running ∧ s.seq.phase = .burst) (more : 1 < s.seq.repeats)
    (waits : 0 < s.curStep.pauseTime) :
    s.burstComplete.seq = { s.seq with
        repeats := s.seq.repeats - 1, phase := .pause, pauseTimer := .from (s.curStep.pauseTime * 1000) }
      ∧ s.burstComplete.ver = s.ver.pauseBegins := by
  unfold State.burstComplete
  rw [if_pos acts, if_pos more]
  dsimp only
  rw [if_pos waits]
  exact ⟨rfl, rfl⟩

theorem State.burstComplete_again (acts : s.seq.state = .running ∧ s.seq.phase = .burst) (more : 1 < s.seq.repeats)
    (now : s.curStep.pauseTime = 0) :
    s.burstComplete.seq = { s.seq with repeats := s.seq.repeats - 1 } ∧ s.burstComplete.ver = s.ver.newBurst := by
  unfold State.burstComplete
  rw [if_pos acts, if_pos more]
  dsimp only
  rw [if_neg (by omega)]
  exact ⟨rfl, rfl⟩

theorem ReportsTo.onVer (h : ReportsTo s u v) (f : Verifier → Verifier) : ReportsTo s (u.onVer f) (f v) :=
  ⟨h.seq, congrArg f h.ver, h.store, h.settings, h.adm, h.tx, h.records⟩

/-! ### How the round goes on -/

/-- At the last index the round ends COMPLETE (R85). -/
theorem DoneAttempt.completes (h : DoneAttempt s u.doneAttempt v) (last : s.seq.pointer.val = s.lastIndex) :
    u.attemptDone = u.doneAttempt.closeRound .complete := by
  have ends : u.doneAttempt.seq.pointer.val = u.doneAttempt.lastIndex := by rw [h.lastIndex, h.seq]; exact last
  exact if_pos ends

/-- Before it the next step is entered, chained or not (R85, R86). -/
theorem DoneAttempt.goesOn (h : DoneAttempt s u.doneAttempt v) {next : Fin 20} (follows : next.val = s.seq.pointer.val + 1)
    (more : s.seq.pointer.val ≠ s.lastIndex) :
    u.attemptDone = if (s.stepAt next).chain = true ∧ s.curStep.pairs ≠ [] then u.doneAttempt.enterChained next
      else u.doneAttempt.releaseIfClaims.enterStep next false := by
  have goes : ¬ u.doneAttempt.seq.pointer.val = u.doneAttempt.lastIndex := by rw [h.lastIndex, h.seq]; exact more
  have place : Fin.ofNat 20 (u.doneAttempt.seq.pointer.val + 1) = next := by
    have pointer : u.doneAttempt.seq.pointer = s.seq.pointer := by rw [h.seq]
    apply Fin.ext
    rw [pointer, ← follows]
    exact Nat.mod_eq_of_lt next.isLt
  have on : u.attemptDone = (if (u.doneAttempt.stepAt (Fin.ofNat 20 (u.doneAttempt.seq.pointer.val + 1))).chain
        ∧ u.doneAttempt.curStep.pairs ≠ [] then u.doneAttempt.enterChained (Fin.ofNat 20 (u.doneAttempt.seq.pointer.val + 1))
      else u.doneAttempt.releaseIfClaims.enterStep (Fin.ofNat 20 (u.doneAttempt.seq.pointer.val + 1)) false) := if_neg goes
  rw [on, place, h.stepAt, h.curStep]

/-- The next step entered after its predecessor's release (R76, R85). -/
theorem DoneAttempt.entersNext (h : DoneAttempt s t v) (next : Fin 20) :
    FreshAttempt s (t.releaseIfClaims.enterStep next false) next (s.stepAt next)
    ∧ Entered (t.releaseIfClaims.enterStep next false) (s.stepAt next) s.baseUrgency false
    ∧ (t.releaseIfClaims.enterStep next false).log.comp = t.log.comp := by
  obtain ⟨frame, log, -, -⟩ := t.releaseIfClaims_spec
  generalize t.releaseIfClaims = w at *
  have seq : w.seq = t.seq := frame.seq (by decide)
  have store : w.store = s.store := (frame.store (by decide)).trans h.store
  have step : w.stepAt next = s.stepAt next := State.stepAt_congr store (by rw [seq, h.seq]) next
  have base : w.baseUrgency = s.baseUrgency := State.baseUrgency_congr store (by rw [seq, h.seq])
  obtain ⟨fresh, entered, -, -, -, records, -⟩ := w.enterStep_spec next false
  rw [step] at fresh entered
  rw [base] at entered
  refine ⟨fresh.congr (by rw [seq, h.seq]) ((frame.settings (by decide)).trans h.settings), entered, ?_⟩
  rw [records.comp, log.records.comp]

theorem State.reportRunning_of_running (running : s.seq.state = .running) : s.reportRunning = s := by
  unfold State.reportRunning
  rw [running]
  exact ite_self _

/-- What a chain request in RUNNING leaves: the grant kept for the new demands, a RUN placed with the base key (R47). -/
theorem State.chainRequest_running (own : s.adm.own = .running) (running : s.seq.state = .running) (pairs : List Pair) (tag : Nat) :
    (s.chainRequest pairs tag).seq = s.seq ∧ (s.chainRequest pairs tag).ver = s.ver
    ∧ (s.chainRequest pairs tag).adm.own = .running ∧ (s.chainRequest pairs tag).adm.standing = some ⟨pairs, tag⟩
    ∧ (s.chainRequest pairs tag).adm.urgency = s.baseUrgency
    ∧ (s.chainRequest pairs tag).tx.own =
        some (.announce .run (64 * (63 - s.baseUrgency) + s.settings.node) s.settings.leaseLife pairs) := by
  unfold State.chainRequest
  rw [if_pos own]
  dsimp only
  obtain ⟨y, hy⟩ : ∃ y, y = s.onAdm fun a => { a with standing := some ⟨pairs, tag⟩, urgency := s.baseUrgency, aging := 0 } := ⟨_, rfl⟩
  rw [← hy]
  have step := y.placeOp_step (.ownUpdate .cip pairs y.ownKey .running)
  have frame := Untouched.placeOp y (.ownUpdate .cip pairs y.ownKey .running)
  generalize y.placeOp (.ownUpdate .cip pairs y.ownKey .running) = z at *
  have seq : z.seq = s.seq := (frame.seq (by decide)).trans (by rw [hy]; rfl)
  have ver : z.ver = s.ver := (frame.ver (by decide)).trans (by rw [hy]; rfl)
  have node : z.settings = s.settings := (frame.settings (by decide)).trans (by rw [hy]; rfl)
  have urgency : z.adm.urgency = s.baseUrgency := step.urgency.trans (by rw [hy]; rfl)
  have standing : z.adm.standing = some ⟨pairs, tag⟩ := step.standing.trans (by rw [hy]; rfl)
  have lease : y.settings.leaseLife = s.settings.leaseLife := by rw [hy]; rfl
  have stays : (z.placeAnnounce .run y.settings.leaseLife).seq.state = .running := by
    show z.seq.state = _
    rw [seq]; exact running
  rw [State.reportRunning_of_running stays]
  refine ⟨seq, ver, step.own.trans (by rw [hy]; exact own), standing, urgency, ?_⟩
  have asked : z.ownPairs = pairs := by unfold State.ownPairs; rw [standing]
  have key : z.ownKey = 64 * (63 - s.baseUrgency) + s.settings.node := by unfold State.ownKey; rw [urgency, node]
  show some (OwnFrame.announce .run z.ownKey y.settings.leaseLife z.ownPairs) = _
  rw [asked, key, lease]

/-- The next step entered chained: a new attempt that stays RUNNING under its grant (R47, R86). -/
theorem DoneAttempt.chains (h : DoneAttempt s t v) (own : s.adm.own = .running) (running : s.seq.state = .running) (next : Fin 20) :
    FreshAttempt s (t.enterChained next) next (s.stepAt next) ∧ (t.enterChained next).seq.state = .running
    ∧ (t.enterChained next).seq.stepTimer = .from 0 ∧ (t.enterChained next).ver.mode = .burst ∧ (t.enterChained next).adm.own = .running
    ∧ (t.enterChained next).adm.standing = some ⟨(s.stepAt next).pairs, (s.seq.tag + 1) % 256⟩
    ∧ (t.enterChained next).adm.urgency = s.baseUrgency
    ∧ (t.enterChained next).tx.own = some (.announce .run (64 * (63 - s.baseUrgency) + s.settings.node) s.settings.leaseLife
        (s.stepAt next).pairs) := by
  obtain ⟨frame, seq, ver, step, base⟩ := t.openAttempt_spec next
  unfold State.enterChained
  dsimp only
  rw [step, h.stepAt]
  rw [h.stepAt] at seq ver
  rw [h.settings] at ver
  rw [h.baseUrgency] at base
  generalize t.openAttempt next = x at *
  rw [h.seq] at seq
  have tag : x.seq.tag = (s.seq.tag + 1) % 256 := by rw [seq]
  have settings : x.settings = s.settings := (frame.settings (by decide)).trans h.settings
  obtain ⟨y, hy⟩ : ∃ y, y = (x.onSeq fun q => { q with stepTimer := .from 0 }).onVer Verifier.runningInBurst := ⟨_, rfl⟩
  rw [← hy]
  have ownY : y.adm.own = .running := by
    rw [hy]
    show x.adm.own = _
    rw [frame.adm (by decide), h.adm]
    exact own
  have seqY : y.seq = { x.seq with stepTimer := .from 0 } := by rw [hy]; rfl
  have verY : y.ver = x.ver.runningInBurst := by rw [hy]; rfl
  have baseY : y.baseUrgency = s.baseUrgency := by rw [hy, ← base]; rfl
  have settingsY : y.settings = s.settings := by rw [hy, ← settings]; rfl
  obtain ⟨seqT, verT, ownT, standing, urgency, frameT⟩ :=
    State.chainRequest_running ownY (by rw [seqY, seq]; exact running) (s.stepAt next).pairs x.seq.tag
  rw [baseY, settingsY] at frameT
  rw [baseY] at urgency
  rw [tag] at standing
  refine ⟨?_, ?_, ?_, ?_, ownT, ?_, ?_, ?_⟩
  · rw [seq] at seqY
    rw [ver] at verY
    constructor <;> simp [seqT, verT, seqY, verY, Verifier.runningInBurst, Verifier.newAttempt, requiredCredit, Config.baseWeight]
  · rw [seqT, seqY, seq]; exact running
  · rw [seqT, seqY]
  · rw [verT, verY]; rfl
  · rw [tag]; exact standing
  · exact urgency
  · exact frameT
end

end Sys2Proof.Machine

open Sys2Proof Sys2Proof.Machine

/-- Settles O39: the exchange's end brings one state that takes the verifier's report, and each report is followed from there. -/
theorem sampleReportsMoveTheRound : Obligations.SampleReportsMoveTheRound := by
  intro s c x n silent e phase awaiting ends he running burst fits
  obtain ⟨u, hu⟩ : ∃ u, u = s.sampled e n silent := ⟨_, rfl⟩
  have run : exec c s = done (u.reported e.report) := hu ▸ exec_endsExchange phase awaiting ends he
  have reports : ReportsTo s u e.ver := hu ▸ State.sampled_reports s e n silent
  have opened : s.seq.attemptOpen = true := by rw [fits.attempt, running]; rfl
  have placing := Placing.reported u e.report
  have before : Untouched roundReach s u := by
    rw [hu]
    exact ((Untouched.onPort s _).mono (by decide)).trans (((Untouched.stickyIf _ _ _).mono (by decide)).trans
      (((Untouched.onVer _ _).mono (by decide)).trans ((Untouched.stickyIf _ _ _).mono (by decide))))
  have after : Untouched [.updates, .adm, .seq, .ver, .tx, .log] u (u.reported e.report).finish := placing.untouched.finish
  have port : u.port = { s.port with exchange := .idle, replyTimer := .stopped, absent := n, silent := silent } := by
    rw [hu]
    unfold State.sampled
    cases silent <;> cases e.sensorAbsent <;> rfl
  have acts : u.seq.state = .running ∧ u.seq.phase = .burst := by rw [reports.seq]; exact ⟨running, burst⟩
  obtain ⟨w, hw⟩ : ∃ w, w = u.onVer Verifier.lastRepetition := ⟨_, rfl⟩
  have attempt : DoneAttempt s w.doneAttempt { e.ver with reps := e.ver.reps + 1 } :=
    hw ▸ (reports.onVer Verifier.lastRepetition).doneAttempt opened
  have ends (complete : e.report = .burstComplete) (spent : s.seq.repeats ≤ 1) : u.reported e.report = w.attemptDone := by
    rw [complete, hw]
    exact State.burstComplete_last acts (by rw [reports.seq]; exact spent)
  refine ⟨_, run, before.trans (after.mono (by decide)), port ▸ after.port (by decide), fun absent => ?_, fun quiet => ?_,
    fun lost => ?_, fun complete more waits => ?_, fun complete more now => ?_, fun complete spent last room none' => ?_,
    fun complete spent next follows on plain => ?_, fun complete spent next follows on chained claims own => ?_, rfl, fun v o => rfl⟩
  · rw [State.finish_flag]
    exact placing.flags _ (hu ▸ (s.sampled_flags e n silent).1 absent)
  · rw [State.finish_flag]
    exact placing.flags _ (hu ▸ (s.sampled_flags e n silent).2 quiet)
  · have suspends : u.reported e.report = u.suspend .sensorLost := by rw [lost]; exact if_pos acts
    obtain ⟨-, suspended, -, comp⟩ := u.suspend_spec .sensorLost (by rw [reports.seq]; exact opened)
    rw [suspends]
    refine ⟨(suspended.congr reports.seq reports.curStep).finish, ?_⟩
    rw [State.finish_log, comp, reports.records.comp, reports.ver, reports.seq]
    rfl
  · obtain ⟨seq, ver⟩ := State.burstComplete_pause acts (by rw [reports.seq]; exact more) (by rw [reports.curStep]; exact waits)
    rw [complete, State.finish_seq, State.finish_ver]
    exact ⟨seq.trans (by rw [reports.seq, reports.curStep]), ver.trans (by rw [reports.ver]; rfl)⟩
  · obtain ⟨seq, ver⟩ := State.burstComplete_again acts (by rw [reports.seq]; exact more) (by rw [reports.curStep]; exact now)
    rw [complete, State.finish_seq, State.finish_ver]
    exact ⟨seq.trans (by rw [reports.seq]), ver.trans (by rw [reports.ver]; rfl)⟩
  · rw [ends complete spent, attempt.completes last]
    obtain ⟨x, hx⟩ : ∃ x, s.log.comp = some x := Option.ne_none_iff_exists'.1 fun none'' => by
      rw [← fits.record, running] at none''
      cases none''
    have comp : w.doneAttempt.log.comp = some { x with
        record := x.record.addResult ({ e.ver with reps := e.ver.reps + 1 }.result s.seq.pointer .done) } := by
      rw [attempt.comp, hx]
      rfl
    have closed := w.doneAttempt.closeRound_spec .complete _ comp (by rw [attempt.queue]; exact room) (by rw [attempt.seq]; exact none')
    rw [State.finish_seq, State.finish_ver, State.finish_log]
    refine ⟨by rw [closed.seq], by rw [closed.ver], _, x, hx, closed.queue.trans (congrArg (· ++ _) attempt.queue), rfl, rfl, fun mark => ?_⟩
    rw [State.finish_flag]
    exact closed.flags _ (attempt.mark mark)
  · rw [ends complete spent, attempt.goesOn follows on, if_neg (by rw [plain]; exact fun k => absurd k.1 (by decide))]
    obtain ⟨fresh, entered, comp⟩ := attempt.entersNext next
    exact ⟨fresh.finish, entered.finish, by rw [State.finish_log, comp, attempt.comp]⟩
  · rw [ends complete spent, attempt.goesOn follows on, if_pos ⟨chained, claims⟩]
    obtain ⟨fresh, state, timer, mode, grant, standing, urgency, frame⟩ := attempt.chains own running next
    rw [State.finish_seq, State.finish_ver, State.finish_adm, State.finish_own]
    exact ⟨fresh.finish, state, timer, mode, grant, standing, urgency, frame⟩

end

section
/-! The end of an own copy (R140, R141, R143, R156, R159, R160): what the operations of the round and of the admission unit leave of
the link controller and of the selector's place and turn. -/

namespace Sys2Proof.Machine

/-! ### The relation -/

/-- The link controller but for the note that hold-off has moved, the place of the copy on the medium and the round robin's turn
are as they were, and an evaluation requested stays requested. -/
structure Steady (s t : State) : Prop where
  link : t.link = { s.link with holdOffMoved := t.link.holdOffMoved }
  copy : t.tx.copyFrom = s.tx.copyFrom
  turn : t.tx.turn = s.tx.turn
  count : t.tx.turnCount = s.tx.turnCount
  asked : s.adm.evalReq.isSome = true → t.adm.evalReq.isSome = true

theorem Steady.refl (s : State) : Steady s s := ⟨rfl, rfl, rfl, rfl, id⟩

/-- A slot that is replaced leaves the place of the copy and the turn. -/
theorem Selector.replaced_turn (t : Selector) (slot : SlotId) : (t.replaced slot).copyFrom = t.copyFrom
    ∧ (t.replaced slot).turn = t.turn ∧ (t.replaced slot).turnCount = t.turnCount := by
  unfold Selector.replaced
  split <;> exact ⟨rfl, rfl, rfl⟩

section
variable {s t : State} (h : Steady s t)
include h

theorem Steady.onUpdates (f) : Steady s (t.onUpdates f) := ⟨h.link, h.copy, h.turn, h.count, h.asked⟩
theorem Steady.onSeq (f) : Steady s (t.onSeq f) := ⟨h.link, h.copy, h.turn, h.count, h.asked⟩
theorem Steady.onVer (f) : Steady s (t.onVer f) := ⟨h.link, h.copy, h.turn, h.count, h.asked⟩
theorem Steady.onLog (f) : Steady s (t.onLog f) := ⟨h.link, h.copy, h.turn, h.count, h.asked⟩
theorem Steady.onAdm (f : Admission → Admission) (same : (f t.adm).evalReq = t.adm.evalReq) : Steady s (t.onAdm f) :=
  ⟨h.link, h.copy, h.turn, h.count, by rw [State.onAdm_adm, same]; exact h.asked⟩
theorem Steady.onTx (f : Selector → Selector) (copy : (f t.tx).copyFrom = t.tx.copyFrom) (turn : (f t.tx).turn = t.tx.turn)
    (count : (f t.tx).turnCount = t.tx.turnCount) : Steady s (t.onTx f) :=
  ⟨h.link, copy.trans h.copy, turn.trans h.turn, count.trans h.count, h.asked⟩
theorem Steady.holdOffMoved (v) : Steady s (t.onLink fun l => { l with holdOffMoved := v }) :=
  ⟨by rw [State.onLink_link, h.link], h.copy, h.turn, h.count, h.asked⟩
theorem Steady.enter (o) : Steady s (t.onAdm (Admission.enter o)) := h.onAdm _ rfl
theorem Steady.sticky (f) : Steady s (t.sticky f) := h.onLog _
theorem Steady.stickyIf (c f) : Steady s (t.stickyIf c f) := by
  unfold State.stickyIf; split <;> [exact h.sticky f; exact h]
theorem Steady.placeOwn (c) : Steady s (t.placeOwn c) :=
  have ⟨copy, turn, count⟩ := t.tx.replaced_turn .own
  h.onTx _ copy turn count
theorem Steady.placeProduct (i c) : Steady s (t.placeProduct i c) :=
  have ⟨copy, turn, count⟩ := t.tx.replaced_turn (.product i)
  h.onTx _ copy turn count
theorem Steady.placeStatus (b ms) : Steady s (t.placeStatus b ms) :=
  have ⟨copy, turn, count⟩ := t.tx.replaced_turn .status
  h.onTx _ copy turn count
theorem Steady.makeStatus : Steady s t.makeStatus := (h.placeStatus _ _).onLog _
theorem Steady.setRound (r) : Steady s (t.setRound r) := by
  unfold State.setRound; split <;> [exact h; exact (h.onSeq _).makeStatus]
theorem Steady.enqueue (op) : Steady s (t.enqueue op) := by
  unfold State.enqueue
  dsimp only
  split
  · exact (((h.onUpdates _).onUpdates _).holdOffMoved _).sticky _
  · exact h.onUpdates _
theorem Steady.placeOp (op) : Steady s (t.placeOp op) := by
  unfold State.placeOp; split <;> [exact (h.onAdm _ rfl).enqueue _; exact h.onAdm _ rfl]
theorem Steady.requestEval (b) : Steady s (t.requestEval b) := by
  rcases t.requestEval_cases b with ⟨-, e⟩ | ⟨-, none, e⟩ | ⟨-, -, e⟩ <;> rw [e]
  · exact h
  · have asked : ∀ x, Steady s ((t.onAdm fun a => { a with evalReq := some x }).placeOp .evaluate) := fun x =>
      Steady.placeOp (t := t.onAdm _) ⟨h.link, h.copy, h.turn, h.count, fun _ => rfl⟩ _
    exact asked _
  · exact h.onAdm _ rfl
end

/-! ### The round and the admission unit -/

section
variable {s t : State} (h : Steady s t)
include h

theorem Steady.enterRunning : Steady s t.enterRunning := ((h.onSeq _).onVer _).setRound _
theorem Steady.restartAttempt : Steady s t.restartAttempt := ((h.onSeq _).onVer _).setRound _
theorem Steady.reportWaiting : Steady s t.reportWaiting := by
  unfold State.reportWaiting
  split
  · split <;> [exact h.setRound _; exact h.restartAttempt; exact h]
  · exact h
theorem Steady.placeAnnounce (st l) : Steady s (t.placeAnnounce st l) := (h.placeOwn _).onAdm _ rfl
theorem Steady.releaseRequest : Steady s t.releaseRequest := by
  unfold State.releaseRequest
  split
  · exact h
  rename_i st _
  dsimp only
  have withdrawn := h.onAdm (fun a => { a with standing := none, framePlaced := false }) rfl
  split
  · exact withdrawn
  have removed := (withdrawn.placeOp (.ownRemove .cip (resourcesOf st.pairs))).enter .none
  split <;> [exact removed.placeOwn _; exact removed]
theorem Steady.receiveRequest (p g) : Steady s (t.receiveRequest p g) := by
  unfold State.receiveRequest
  dsimp only
  split <;> [exact h.onAdm _ rfl; exact h.releaseRequest.onAdm _ rfl]
theorem Steady.takeRequest : Steady s t.takeRequest := by
  unfold State.takeRequest
  split
  · exact h
  · split <;> [exact (((h.placeOp _).enter _).reportWaiting).requestEval _; exact h]
theorem Steady.openAttempt (i) : Steady s (t.openAttempt i) := ((h.onSeq _).onSeq _).onVer _
theorem Steady.proceed : Steady s t.proceed := by
  unfold State.proceed; split <;> [exact h.enterRunning; exact ((h.receiveRequest _ _).setRound _).takeRequest]
theorem Steady.enterStep (i c) : Steady s (t.enterStep i c) := by
  unfold State.enterStep
  dsimp only
  split <;> [exact (h.openAttempt _).setRound _; exact (h.openAttempt _).proceed]
theorem Steady.endAttempt (o) : Steady s (t.endAttempt o) := by
  unfold State.endAttempt; split <;> [exact ((h.onVer _).onLog _).onSeq _; exact h]
theorem Steady.releaseIfClaims : Steady s t.releaseIfClaims := by
  unfold State.releaseIfClaims; split <;> [exact h; exact h.releaseRequest]
theorem Steady.takePending : Steady s t.takePending := by
  unfold State.takePending
  split
  · split <;> [exact h; exact (((h.onSeq _).onLog _).onVer _).enterStep _ _]
  · exact h
theorem Steady.recordTaken : Steady s t.recordTaken := by
  unfold State.recordTaken; split <;> [exact (h.setRound _).takePending; exact h]
theorem Steady.takeRecord : Steady s t.takeRecord := by
  unfold State.takeRecord
  have ⟨copy, turn, count⟩ := t.tx.replaced_turn .stream
  split
  · exact h
  split
  · exact h.onLog _
  split
  · exact ((h.onTx _ copy turn count).onLog _).sticky _
  · exact h
theorem Steady.haltAttempt (o) : Steady s (t.haltAttempt o) := (h.endAttempt _).onSeq _
theorem Steady.enterSuspended (c) : Steady s (t.enterSuspended c) := (h.onSeq _).setRound _
theorem Steady.suspend (c) : Steady s (t.suspend c) := ((h.haltAttempt _).releaseIfClaims).enterSuspended _
theorem Steady.standAgain : Steady s t.standAgain := by
  unfold State.standAgain
  split
  · exact h.setRound _
  · split <;> [exact h.enterRunning; exact h.setRound _]
theorem Steady.stopReported (a) : Steady s (t.stopReported a) := by
  unfold State.stopReported
  split
  · exact h
  · exact h.setRound _
  · exact (h.haltAttempt _).enterSuspended _
  · exact ((h.haltAttempt _).openAttempt _).standAgain
theorem Steady.stopAnswered (a) : Steady s (t.stopAnswered a) := by
  unfold State.stopAnswered
  split
  · exact h
  · exact h
  · exact h.releaseIfClaims
  · split <;> [exact h.releaseRequest; exact (h.receiveRequest _ _).takeRequest]
theorem Steady.stopRun (c) : Steady s (t.stopRun c) :=
  (((((h.stopReported _).stickyIf _ _).placeOp _).enter _).placeOwn _).stopAnswered _
theorem Steady.yieldStep : Steady s t.yieldStep := (((h.placeOp _).placeAnnounce _ _).enter _).reportWaiting
theorem Steady.admReticent : Steady s t.admReticent := by
  unfold State.admReticent; split <;> [exact h.yieldStep; exact h]
theorem Steady.admEngaged : Steady s t.admEngaged := by
  unfold State.admEngaged; split <;> [exact h.requestEval _; exact h]
theorem Steady.seqDetached : Steady s t.seqDetached := by
  unfold State.seqDetached
  split
  · exact h.setRound _
  · split <;> [exact h; exact h.suspend _]
  · exact h
theorem Steady.stepLetGo : Steady s t.stepLetGo := by
  unfold State.stepLetGo
  split <;> [exact h.stopRun _; exact h; exact (h.placeOp _).enter _]
theorem Steady.dropHold (i) : Steady s (t.dropHold i) := by
  unfold State.dropHold
  split
  · split <;> [exact (h.placeOp _).onAdm _ rfl; exact h.onAdm _ rfl]
  · exact h
theorem Steady.admDetached : Steady s t.admDetached := by
  rw [State.admDetached_eq]
  have dropped := List.foldlRecOn (motive := fun u : State => Steady s u) allFour State.dropHold h.stepLetGo fun _ k i _ => k.dropHold i
  exact (List.foldlRecOn (motive := fun u : State => Steady s u) allFour _ (dropped.placeOwn none)
    fun _ k i _ => k.placeProduct i none).onAdm _ rfl

/-! ### Deliveries -/

theorem Steady.grant : Steady s t.grant := ((h.placeOp _).enter _).onAdm _ rfl
theorem Steady.ownDelivered (c) : Steady s (t.ownDelivered c) := by
  unfold State.ownDelivered
  have kept := h.onAdm (fun a => { a with last := some c }) rfl
  dsimp only
  split
  · exact kept.onAdm _ rfl
  · exact kept.grant
  · exact kept.onAdm _ rfl
  · exact kept.onAdm _ rfl
  · exact kept
theorem Steady.productDelivered (i c) : Steady s (t.productDelivered i c) := by
  unfold State.productDelivered; split <;> [exact h.onAdm _ rfl; exact h]
theorem Steady.fragmentDelivered : Steady s t.fragmentDelivered := by
  unfold State.fragmentDelivered
  split
  · exact h
  · split <;> [exact h.onLog _; exact (h.onLog _).takeRecord.recordTaken]
theorem Steady.currentDelivery (slot) : Steady s (t.currentDelivery slot) := by
  unfold State.currentDelivery
  split
  · split <;> [exact (h.onTx _ rfl rfl rfl).ownDelivered _; exact h]
  · split <;> [exact (h.onTx _ rfl rfl rfl).productDelivered _ _; exact h]
  · exact (h.onTx _ rfl rfl rfl).onLog _
  · exact h.fragmentDelivered
end

/-! ### TEC and the link state -/

/-- TEC after an outcome, below its stop (R140, R141). -/
def CopyOutcome.tecAfter (o : CopyOutcome) (n : Nat) : Nat :=
  match o with
  | .delivered => n - 1
  | .rejected => n + 4
  | .unanswered => n + 4
  | .held => n

section
variable {u : State}

/-- A move of TEC that leaves the link state. -/
theorem State.moveCounts_still {n : Nat} (still : (u.onLink fun l => { l with tec := n }).judgeLink = u.onLink fun l => { l with tec := n }) :
    u.moveCounts n u.link.recCount = u.onLink fun l => { l with tec := n } := by
  unfold State.moveCounts
  split
  · rename_i same
    rw [same.1]
    rfl
  · exact still

theorem State.tecMove_still (engaged : u.link.state = .engaged) (tec : u.link.tec < 92) (rec' : u.link.recCount < 96) (o : CopyOutcome) :
    u.tecMove o = u.onLink fun l => { l with tec := o.tecAfter l.tec } := by
  have still (n : Nat) (low : n < 96) : u.moveCounts n u.link.recCount = u.onLink fun l => { l with tec := n } :=
    State.moveCounts_still (State.judgeLink_still (s := u.onLink _) (show n < 192 by omega) (fun _ => ⟨low, rec'⟩)
      (fun reticent => absurd (engaged.symm.trans reticent) nofun))
  have raised : raiseCount u.link.tec 4 = u.link.tec + 4 := by unfold raiseCount; omega
  cases o with
  | delivered => exact still _ (by omega)
  | rejected => exact (congrArg (u.moveCounts · u.link.recCount) raised).trans (still _ (by omega))
  | unanswered => exact (congrArg (u.moveCounts · u.link.recCount) raised).trans (still _ (by omega))
  | held => rfl
end

/-! ### The outcome handed to the selector -/

/-- The copy is over, its class counted in the round robin (R159, R160). -/
def State.copyDone (s : State) (slot : SlotId) : State :=
  (s.onTx fun t => { t with copyFrom := none }).onTx fun t => t.countTurn slot

section
variable {s : State} {slot : SlotId} (copy : s.tx.copyFrom = some slot)
include copy

theorem State.handOutcome_delivered : s.handOutcome .delivered =
    if s.tx.marks.get slot then s.copyDone slot else (s.copyDone slot).currentDelivery slot := by
  unfold State.handOutcome
  rw [copy]
  rfl
theorem State.handOutcome_held : s.handOutcome .held = s.onTx fun t => { t with copyFrom := none, holdBack := .from 0 } := by
  unfold State.handOutcome
  rw [copy]
  rfl
theorem State.handOutcome_failed {o : CopyOutcome} (h : o = .rejected ∨ o = .unanswered) :
    s.handOutcome o = s.onTx fun t => { t with copyFrom := none } := by
  unfold State.handOutcome
  rw [copy]
  rcases h with rfl | rfl <;> rfl
theorem Steady.handDelivered : Steady (s.copyDone slot) (s.handOutcome .delivered) := by
  rw [State.handOutcome_delivered copy]
  split <;> [exact .refl _; exact (Steady.refl _).currentDelivery slot]
end

section
variable {s : State} {slot : SlotId} (copy : s.tx.copyFrom = some slot)
include copy

/-- Whatever the outcome, the copy is over, and the link controller stands. -/
theorem State.handOutcome_over (o : CopyOutcome) : (s.handOutcome o).tx.copyFrom = none
    ∧ (s.handOutcome o).link = { s.link with holdOffMoved := (s.handOutcome o).link.holdOffMoved } := by
  cases o with
  | delivered =>
    have steady := Steady.handDelivered copy
    refine ⟨steady.copy.trans ?_, steady.link⟩
    cases slot <;> rfl
  | rejected => rw [State.handOutcome_failed copy (.inl rfl)]; exact ⟨rfl, rfl⟩
  | unanswered => rw [State.handOutcome_failed copy (.inr rfl)]; exact ⟨rfl, rfl⟩
  | held => rw [State.handOutcome_held copy]; exact ⟨rfl, rfl⟩
end

/-- The selector once the copy is over. -/
theorem State.copyDone_tx (s : State) (slot : SlotId) : (s.copyDone slot).tx = { s.tx with
    copyFrom := none, turnCount := if slot = .status ∨ slot = .stream then s.tx.turnCount + 1 else s.tx.turnCount } := by
  cases slot <;> rfl

/-! ### The outcome by the slots seen -/

theorem copyOutcome_failed {seen : AckSlots} (h : seen.reject = true ∨ seen.hold = false ∧ seen.accept = false) :
    copyOutcome seen = .rejected ∨ copyOutcome seen = .unanswered := by
  unfold copyOutcome
  rcases h with rejected | ⟨noHold, noAccept⟩
  · exact .inl (if_pos rejected)
  · rw [noHold, noAccept]
    cases seen.reject
    · exact .inr rfl
    · exact .inl rfl
theorem copyOutcome_held {seen : AckSlots} (reject : seen.reject = false) (hold : seen.hold = true) : copyOutcome seen = .held := by
  unfold copyOutcome
  rw [reject, hold]
  rfl
theorem copyOutcome_delivered {seen : AckSlots} (reject : seen.reject = false) (hold : seen.hold = false)
    (accept : seen.accept = true) : copyOutcome seen = .delivered := by
  unfold copyOutcome
  rw [reject, hold, accept]
  rfl

theorem State.sending_of_role {s : State} (running : s.loader.phase = .running) (role : s.link.role = .sender) : s.sending = true := by
  unfold State.sending
  rw [State.running_of_phase running, role]
  rfl

/-- The end of the frame that this node sends (R140, R141, R160). -/
theorem exec_ownFrameEnd {s : State} (running : s.loader.phase = .running) (role : s.link.role = .sender) (seen : AckSlots) :
    exec (.ownFrameEnd seen) s = done (((s.frameOver none).tecMove (copyOutcome seen)).handOutcome (copyOutcome seen)) :=
  congrArg done (if_pos (State.sending_of_role running role))

/-! ### Current deliveries -/

section
variable {s : State}

theorem State.ownDelivered_keeps (x : OwnFrame) : (s.ownDelivered x).adm.last = some x ∧ (s.ownDelivered x).tx = s.tx := by
  unfold State.ownDelivered
  dsimp only
  split
  · exact ⟨rfl, rfl⟩
  · refine ⟨?_, State.placeOp_tx _ _⟩
    exact (State.placeOp_step (s.onAdm _) _).last
  · exact ⟨rfl, rfl⟩
  · exact ⟨rfl, rfl⟩
  · exact ⟨rfl, rfl⟩

/-- The RUN delivered in RUN-PENDING grants the step (R41). -/
theorem State.ownDelivered_grants (own : s.adm.own = .runPending) (key life pairs) :
    (s.ownDelivered (.announce .run key life pairs)).adm.own = .running
    ∧ (s.ownDelivered (.announce .run key life pairs)).adm.refresh = .from 0
    ∧ (s.ownDelivered (.announce .run key life pairs)).adm.guard = .from 0
    ∧ (s.ownDelivered (.announce .run key life pairs)).Awaits (.ownUpdate .cip s.ownPairs s.ownKey .running) := by
  have granted : s.ownDelivered (.announce .run key life pairs) =
      (s.onAdm fun a => { a with last := some (.announce .run key life pairs) }).grant := by
    unfold State.ownDelivered
    rw [own]
  rw [granted]
  exact ⟨rfl, rfl, rfl, State.placeOp_awaits (s.onAdm fun a => { a with last := some (.announce .run key life pairs) }) _⟩

theorem State.ownDelivered_claim (own : s.adm.own = .claiming) (key life pairs) :
    (s.ownDelivered (.announce .claim key life pairs)).adm =
      { s.adm with last := some (.announce .claim key life pairs), settle := .from 0, lapse := .from 0 } := by
  unfold State.ownDelivered
  rw [own]
  rfl
theorem State.ownDelivered_wait (own : s.adm.own = .waiting) (key life pairs) :
    (s.ownDelivered (.announce .wait key life pairs)).adm =
      { s.adm with last := some (.announce .wait key life pairs), refresh := s.adm.refresh.startIfStopped } := by
  unfold State.ownDelivered
  rw [own]
  rfl
theorem State.ownDelivered_run (own : s.adm.own = .running) (key life pairs) :
    (s.ownDelivered (.announce .run key life pairs)).adm =
      { s.adm with last := some (.announce .run key life pairs), guard := .from 0 } := by
  unfold State.ownDelivered
  rw [own]
  rfl

/-- A PRODUCT announcement delivered starts the refresh of a hold that stands (R53). -/
theorem State.productDelivered_holds {i : Fin 4} {life : Nat} {r : Res} (holding : (s.adm.holds[i]).holding = true) :
    (s.productDelivered i (.announce life r)).adm.holds[i] =
      ⟨true, if (s.adm.holds[i]).refresh.on then (s.adm.holds[i]).refresh else .from 0⟩ := by
  show (modAt s.adm.holds i _)[i] = _
  rw [modAt_get, if_pos rfl, if_pos holding, holding]
  rfl

theorem Log.statusDelivered_isSet (l : Log) (f : Sticky) :
    l.statusDelivered.isSet f = (l.isSet f && (!l.carried.getLsbD f.index || l.renewal.getLsbD f.index)) := by
  have inside : f.index < 16 := by cases f <;> decide
  simp [Log.statusDelivered, Log.isSet, inside]

/-! ### The record stream -/

theorem State.fragmentDelivered_more {r rest} (queue : s.log.queue = r :: rest) (more : s.log.nextFragment + 1 < r.fragmentCount) :
    s.fragmentDelivered = s.onLog fun l => { l with nextFragment := l.nextFragment + 1 } := by
  unfold State.fragmentDelivered
  rw [queue]
  exact if_pos more
theorem State.fragmentDelivered_last {r rest} (queue : s.log.queue = r :: rest) (last : ¬ s.log.nextFragment + 1 < r.fragmentCount) :
    s.fragmentDelivered = ((s.onLog Log.dropHead).takeRecord).recordTaken := by
  unfold State.fragmentDelivered
  rw [queue]
  exact if_neg last

theorem State.takeRecord_of_unfinished (unfinished : ∀ w, s.log.comp ≠ some ⟨w, true⟩) : s.takeRecord = s := by
  have none' : s.log.waitingRecord = none := by
    unfold Log.waitingRecord
    split
    · rename_i c composed
      exact if_neg fun complete => unfinished c.record (composed.trans (by rw [← complete]))
    · rfl
  unfold State.takeRecord
  rw [none']
theorem State.takeRecord_of_room {w : Record} (waits : s.log.comp = some ⟨w, true⟩) (room : s.log.queue.length < 6) :
    s.takeRecord = s.onLog fun l => l.append w := by
  have some' : s.log.waitingRecord = some w := by unfold Log.waitingRecord; rw [waits]; rfl
  unfold State.takeRecord
  rw [some']
  exact if_pos room

theorem State.takePending_of_none (none' : ∀ j : Fin 4, s.seq.pendingSet[j] = none) : s.takePending = s := by
  have nobody : s.seq.nextPending = none := by
    unfold Sequencer.nextPending
    rw [List.findSome?_eq_none_iff]
    intro j _
    rw [none' j]
    rfl
  unfold State.takePending
  rw [nobody]
  exact ite_self _

theorem State.enterStep_records (s : State) (i : Fin 20) (c : Bool) : SameRecords s.log (s.enterStep i c).log := by
  obtain ⟨-, -, -, -, -, records, -⟩ := s.enterStep_spec i c
  exact records

/-- Beginning another round leaves the queue of records (R73, R166). -/
theorem State.takePending_queue (s : State) : s.takePending.log.queue = s.log.queue ∧ s.takePending.log.nextFragment = s.log.nextFragment := by
  unfold State.takePending
  split
  · split
    · exact ⟨rfl, rfl⟩
    · exact ⟨(State.enterStep_records _ 0 false).queue, (State.enterStep_records _ 0 false).next⟩
  · exact ⟨rfl, rfl⟩
theorem State.recordTaken_queue (s : State) : s.recordTaken.log.queue = s.log.queue ∧ s.recordTaken.log.nextFragment = s.log.nextFragment := by
  unfold State.recordTaken
  split
  · have records := s.setRound_records .idle
    obtain ⟨queue, next⟩ := (s.setRound .idle).takePending_queue
    exact ⟨queue.trans records.queue, next.trans records.next⟩
  · exact ⟨rfl, rfl⟩
theorem State.recordTaken_of_comp (comp : s.log.comp ≠ none) : s.recordTaken = s := if_neg fun h => comp h.2
end

/-! ### What a current delivery does, by slot -/

section
variable {s v : State}

theorem State.ownKey_congr (adm : v.adm = s.adm) (settings : v.settings = s.settings) : v.ownKey = s.ownKey := by
  unfold State.ownKey
  rw [adm, settings]

/-- A node whose own copy is over, its slots and the rest as they were. -/
structure CopyOver (s v : State) : Prop where
  frame : Untouched [.link, .tx] s v
  own : v.tx.own = s.tx.own
  product : v.tx.product = s.tx.product
  status : v.tx.status = s.tx.status

theorem CopyOver.adm (h : CopyOver s v) : v.adm = s.adm := h.frame.adm (by decide)
theorem CopyOver.log (h : CopyOver s v) : v.log = s.log := h.frame.log (by decide)
theorem CopyOver.seq (h : CopyOver s v) : v.seq = s.seq := h.frame.seq (by decide)

/-- The own step slot delivered: its content kept, the slot empty, and the timers that the content starts (R37, R38, R41, R43, R44). -/
theorem CopyOver.ownDelivery (h : CopyOver s v) {x : OwnFrame} (sent : s.tx.own = some x) :
    (v.currentDelivery .own).adm.last = some x ∧ (v.currentDelivery .own).tx.own = none
    ∧ (∀ key life pairs, x = .announce .run key life pairs → s.adm.own = .runPending →
        (v.currentDelivery .own).adm.own = .running ∧ (v.currentDelivery .own).adm.refresh = .from 0
        ∧ (v.currentDelivery .own).adm.guard = .from 0
        ∧ (v.currentDelivery .own).Awaits (.ownUpdate .cip s.ownPairs s.ownKey .running))
    ∧ (∀ key life pairs, x = .announce .claim key life pairs → s.adm.own = .claiming →
        (v.currentDelivery .own).adm.own = .claiming ∧ (v.currentDelivery .own).adm.settle = .from 0
        ∧ (v.currentDelivery .own).adm.lapse = .from 0)
    ∧ (∀ key life pairs, x = .announce .wait key life pairs → s.adm.own = .waiting →
        (v.currentDelivery .own).adm.own = .waiting
        ∧ (v.currentDelivery .own).adm.refresh = if s.adm.refresh.on then s.adm.refresh else .from 0)
    ∧ (∀ key life pairs, x = .announce .run key life pairs → s.adm.own = .running →
        (v.currentDelivery .own).adm.own = .running ∧ (v.currentDelivery .own).adm.guard = .from 0
        ∧ (v.currentDelivery .own).adm.refresh = s.adm.refresh) := by
  obtain ⟨y, hy⟩ : ∃ y, y = v.onTx fun t => { t with own := none } := ⟨_, rfl⟩
  have here : v.currentDelivery .own = y.ownDelivered x := by
    unfold State.currentDelivery
    rw [h.own, sent, hy]
  have adm : y.adm = s.adm := by rw [hy]; exact h.adm
  have empty : y.tx.own = none := by rw [hy]; rfl
  have pairsY : y.ownPairs = s.ownPairs := State.ownPairs_congr (by rw [adm])
  have keyY : y.ownKey = s.ownKey := State.ownKey_congr adm (by rw [hy]; exact h.frame.settings (by decide))
  obtain ⟨last, tx⟩ := State.ownDelivered_keeps (s := y) x
  rw [here]
  refine ⟨last, by rw [tx, empty], ?_, ?_, ?_, ?_⟩
  · rintro key life pairs rfl own
    have granted := State.ownDelivered_grants (s := y) (adm ▸ own) key life pairs
    rwa [pairsY, keyY] at granted
  · rintro key life pairs rfl own
    rw [State.ownDelivered_claim (adm ▸ own)]
    exact ⟨adm ▸ own, rfl, rfl⟩
  · rintro key life pairs rfl own
    rw [State.ownDelivered_wait (adm ▸ own), adm]
    exact ⟨own, rfl⟩
  · rintro key life pairs rfl own
    rw [State.ownDelivered_run (adm ▸ own), adm]
    exact ⟨own, rfl, rfl⟩

/-- A product slot delivered: the slot empty, and the refresh of a hold begun (R53). -/
theorem CopyOver.productDelivery (h : CopyOver s v) (i : Fin 4) :
    (v.currentDelivery (.product i)).tx.product[i] = none ∧ (v.currentDelivery (.product i)).tx.own = s.tx.own
    ∧ ∀ life r, s.tx.product[i] = some (.announce life r) → (s.adm.holds[i]).holding = true →
        (v.currentDelivery (.product i)).adm.holds[i] =
          ⟨true, if (s.adm.holds[i]).refresh.on then (s.adm.holds[i]).refresh else .from 0⟩ := by
  unfold State.currentDelivery
  dsimp only
  cases sent : v.tx.product[i] with
  | none => exact ⟨sent, h.own, fun life r k => absurd ((h.product ▸ sent).symm.trans k) nofun⟩
  | some x =>
    dsimp only
    have emptied : ((v.onTx fun t => { t with product := modAt t.product i fun _ => none }).productDelivered i x).tx.product[i] = none
        ∧ ((v.onTx fun t => { t with product := modAt t.product i fun _ => none }).productDelivered i x).tx.own = s.tx.own := by
      have gone : (modAt v.tx.product i fun _ => none)[i] = (none : Option ProdFrame) := by rw [modAt_get, if_pos rfl]
      cases x <;> exact ⟨gone, h.own⟩
    refine ⟨emptied.1, emptied.2, fun life r k holding => ?_⟩
    obtain rfl : x = .announce life r := Option.some.inj ((h.product ▸ sent).symm.trans k)
    rw [State.productDelivered_holds (by rw [State.onTx_adm, h.adm]; exact holding), State.onTx_adm, h.adm]

/-- The status slot delivered: the slot empty, the flags it carried cleared but for those set again since (R174). -/
theorem CopyOver.statusDelivery (h : CopyOver s v) :
    (v.currentDelivery .status).tx.status = none ∧ (v.currentDelivery .status).tx.statusSuspend = none
    ∧ (v.currentDelivery .status).log.carried = 0 ∧ ∀ f : Sticky, (v.currentDelivery .status).flag f =
        (s.flag f && (!s.log.carried.getLsbD f.index || s.log.renewal.getLsbD f.index)) := by
  refine ⟨rfl, rfl, rfl, fun f => ?_⟩
  unfold State.flag
  rw [← h.log]
  exact Log.statusDelivered_isSet v.log f

/-- A fragment delivered before the last: the stream goes on to the next (R169). -/
theorem CopyOver.fragment (h : CopyOver s v) {r rest} (queue : s.log.queue = r :: rest) (more : s.log.nextFragment + 1 < r.fragmentCount) :
    (v.currentDelivery .stream).log = { s.log with nextFragment := s.log.nextFragment + 1 }
    ∧ Untouched [.link, .tx, .log] s (v.currentDelivery .stream) := by
  have on : v.currentDelivery .stream = v.onLog fun l => { l with nextFragment := l.nextFragment + 1 } :=
    State.fragmentDelivered_more (by rw [h.log]; exact queue) (by rw [h.log]; exact more)
  rw [on]
  exact ⟨by rw [State.onLog_log, h.log], (h.frame.mono (by decide)).trans ((Untouched.onLog v _).mono (by decide))⟩

/-- The last fragment delivered: the record leaves the queue; without a record waiting for room nothing else is taken (R168, R169). -/
theorem CopyOver.lastFragment (h : CopyOver s v) {r rest} (queue : s.log.queue = r :: rest)
    (last : ¬ s.log.nextFragment + 1 < r.fragmentCount) (unfinished : ∀ w, s.log.comp ≠ some ⟨w, true⟩) :
    (v.currentDelivery .stream).log.queue = rest ∧ (v.currentDelivery .stream).log.nextFragment = 0
    ∧ (s.log.comp ≠ none → (v.currentDelivery .stream).log.comp = s.log.comp
        ∧ Untouched [.link, .tx, .log] s (v.currentDelivery .stream)) := by
  have on : v.currentDelivery .stream = ((v.onLog Log.dropHead).takeRecord).recordTaken :=
    State.fragmentDelivered_last (by rw [h.log]; exact queue) (by rw [h.log]; exact last)
  have untaken : (v.onLog Log.dropHead).takeRecord = v.onLog Log.dropHead :=
    State.takeRecord_of_unfinished (fun w k => unfinished w (h.log ▸ k))
  obtain ⟨queueT, nextT⟩ := (v.onLog Log.dropHead).recordTaken_queue
  rw [on, untaken]
  refine ⟨queueT.trans ?_, nextT, fun composing => ?_⟩
  · show v.log.queue.tail = rest
    rw [h.log, queue]
    rfl
  · rw [State.recordTaken_of_comp (s := v.onLog Log.dropHead) (fun k => composing (h.log ▸ k))]
    have comp : (v.onLog Log.dropHead).log.comp = s.log.comp := by rw [← h.log]; rfl
    exact ⟨comp, (h.frame.mono (by decide)).trans ((Untouched.onLog v _).mono (by decide))⟩

/-- The last fragment delivered while a completed record waits for room: it is taken, and its round is over (R95, R168, R169). -/
theorem CopyOver.lastFragment_takes (h : CopyOver s v) {r rest w} (queue : s.log.queue = r :: rest)
    (waits : s.log.comp = some ⟨w, true⟩) (room : rest.length < 6) (last : r.fragmentCount ≤ s.log.nextFragment + 1)
    (closing : s.seq.state = .closing) (none' : ∀ j : Fin 4, s.seq.pendingSet[j] = none) :
    (v.currentDelivery .stream).log.queue = rest ++ [w] ∧ (v.currentDelivery .stream).log.nextFragment = 0
    ∧ (v.currentDelivery .stream).log.comp = none ∧ (v.currentDelivery .stream).seq.state = .idle := by
  have on : v.currentDelivery .stream = ((v.onLog Log.dropHead).takeRecord).recordTaken :=
    State.fragmentDelivered_last (by rw [h.log]; exact queue) (by rw [h.log]; omega)
  have tail : v.log.queue.tail = rest := by rw [h.log, queue]; rfl
  have taken : (v.onLog Log.dropHead).takeRecord = (v.onLog Log.dropHead).onLog fun l => l.append w :=
    State.takeRecord_of_room (congrArg Log.comp h.log |>.trans waits) (by show v.log.queue.tail.length < 6; rw [tail]; exact room)
  obtain ⟨d, hd⟩ : ∃ d, d = (v.onLog Log.dropHead).onLog fun l => l.append w := ⟨_, rfl⟩
  have seq : d.seq = s.seq := by rw [hd]; exact h.seq
  have comp : d.log.comp = none := by rw [hd]; rfl
  have idle : d.recordTaken = d.setRound .idle := by
    unfold State.recordTaken
    rw [if_pos ⟨by rw [seq]; exact closing, comp⟩]
    exact State.takePending_of_none (fun j => by rw [State.setRound_seq, seq]; exact none' j)
  have records := d.setRound_records .idle
  rw [on, taken, ← hd, idle, records.queue, records.next, records.comp, State.setRound_seq]
  refine ⟨?_, ?_, comp, rfl⟩
  · rw [hd]
    show v.log.queue.tail ++ [w] = _
    rw [tail]
  · rw [hd]
    exact ite_self _
end

/-! ### TEC falls in RETICENT -/

section
variable {s u : State}

/-- TEC one lower, and both counts below 80: the node is ENGAGED again (R141, R143). -/
theorem State.tecDown_back (reticent : u.link.state = .reticent)
    (back : 0 < u.link.tec ∧ u.link.tec ≤ 80 ∧ u.link.recCount < 80) :
    u.tecDown = (u.onLink fun l => { l with tec := l.tec - 1 }).returnEngaged := by
  have moved : u.tecDown = (u.onLink fun l => { l with tec := l.tec - 1 }).judgeLink := if_neg (by omega)
  exact moved.trans
    (State.judgeLink_engaged (s := u.onLink _) (show u.link.tec - 1 < 80 by omega) reticent (show u.link.recCount < 80 by omega))
theorem State.tecDown_stays (reticent : u.link.state = .reticent) (tec : u.link.tec < 192)
    (stays : ¬ (0 < u.link.tec ∧ u.link.tec ≤ 80 ∧ u.link.recCount < 80)) :
    u.tecDown = u.onLink fun l => { l with tec := l.tec - 1 } := by
  by_cases zero : u.link.tec = 0
  · have same : u.link.tec - 1 = u.link.tec := by omega
    have unmoved : u.tecDown = u := if_pos ⟨same, rfl⟩
    rw [unmoved]
    show u = { u with link := { u.link with tec := u.link.tec - 1 } }
    rw [same]
  · exact State.moveCounts_still (State.judgeLink_still (s := u.onLink _) (show u.link.tec - 1 < 192 by omega)
      (fun engaged => absurd (reticent.symm.trans engaged) nofun)
      (fun _ => show 80 ≤ u.link.tec - 1 ∨ 80 ≤ u.link.recCount by omega))
end

/-! ### The end of the frame in ENGAGED and in RETICENT -/

section
variable {s : State} {slot : SlotId} (running : s.loader.phase = .running) (role : s.link.role = .sender)
include running role

/-- In ENGAGED, away from the limits, the outcome comes to a node that differs by the frame's end and TEC alone. -/
theorem exec_ownFrameEnd_engaged (engaged : s.link.state = .engaged) (tec : s.link.tec < 92) (rec' : s.link.recCount < 96)
    (seen : AckSlots) : ∃ w, exec (.ownFrameEnd seen) s = done (w.handOutcome (copyOutcome seen)) ∧ Untouched [.link] s w
      ∧ w.tx = s.tx ∧ w.link = { s.link with
        role := .none, copy := none, answer := none, holdOffMoved := false, tec := (copyOutcome seen).tecAfter s.link.tec } :=
  ⟨(s.frameOver none).onLink fun l => { l with tec := (copyOutcome seen).tecAfter l.tec },
    by rw [exec_ownFrameEnd running role, State.tecMove_still (u := s.frameOver none) engaged tec rec'],
    (Untouched.onLink s _).trans (Untouched.onLink _ _), rfl, rfl⟩

/-- In RETICENT the outcome DELIVERED comes to a node that TEC's fall may have brought back to ENGAGED. -/
theorem exec_ownFrameEnd_reticent (copy : s.tx.copyFrom = some slot) (reticent : s.link.state = .reticent) (tec : s.link.tec < 192)
    {seen : AckSlots} (delivered : copyOutcome seen = .delivered) :
    ∃ x : State, exec (.ownFrameEnd seen) s = done (x.handOutcome .delivered) ∧ x.tx.copyFrom = some slot ∧ x.board = s.board
      ∧ x.link = { s.link with
        role := .none, copy := none, answer := none, tec := s.link.tec - 1, state := x.link.state
        holdOffMoved := x.link.holdOffMoved }
      ∧ if 0 < s.link.tec ∧ s.link.tec ≤ 80 ∧ s.link.recCount < 80
        then x.link.state = .engaged ∧ (s.adm.own = .waiting → s.adm.state = .active → x.adm.evalReq.isSome = true)
        else x.link.state = .reticent := by
  obtain ⟨x, hx⟩ : ∃ x, x = (s.frameOver none).tecMove .delivered := ⟨_, rfl⟩
  obtain ⟨y, hy⟩ : ∃ y, y = (s.frameOver none).onLink fun l => { l with tec := l.tec - 1 } := ⟨_, rfl⟩
  have run : exec (.ownFrameEnd seen) s = done (x.handOutcome .delivered) := by
    rw [exec_ownFrameEnd running role, delivered, hx]
  refine ⟨x, run, ?_⟩
  by_cases back : 0 < s.link.tec ∧ s.link.tec ≤ 80 ∧ s.link.recCount < 80
  · have lowered : x = y.returnEngaged := by rw [hx, hy]; exact State.tecDown_back (u := s.frameOver none) reticent back
    have returned := y.returnEngaged_spec
    have steady : Steady (y.onLink fun l => { l with state := .engaged }) y.returnEngaged := (Steady.refl _).admEngaged
    rw [← lowered] at returned steady
    have state : x.link.state = .engaged := by rw [returned.link]
    rw [if_pos back, state]
    exact ⟨steady.copy.trans (by rw [hy]; exact copy), (returned.frame.board (by decide)).trans (by rw [hy]; rfl),
      returned.link.trans (by rw [hy]; rfl), rfl, fun own active => returned.asks (by rw [hy]; exact own) (by rw [hy]; exact active)⟩
  · have lowered : x = y := by rw [hx, hy]; exact State.tecDown_stays (u := s.frameOver none) reticent tec back
    rw [if_neg back, lowered, hy]
    exact ⟨copy, rfl, rfl, reticent⟩
end

section
variable {s u : State}

/-! ### TEC rises -/

/-- TEC has risen by 4; the node's part in the frame, the medium and the copy's place are as they were. -/
structure Struck (s t : State) : Prop where
  tec : t.link.tec = min (s.link.tec + 4) 255
  role : t.link.role = s.link.role
  copy : t.link.copy = s.link.copy
  medium : t.link.medium = s.link.medium
  place : t.tx.copyFrom = s.tx.copyFrom

theorem Struck.steady {s t u : State} (h : Struck s t) (k : Steady t u) : Struck s u :=
  ⟨(congrArg Link.tec k.link).trans h.tec, (congrArg Link.role k.link).trans h.role, (congrArg Link.copy k.link).trans h.copy,
    (congrArg Link.medium k.link).trans h.medium, k.copy.trans h.place⟩

/-- A node whose TEC has just risen. -/
def State.struck (s : State) : State := s.onLink fun l => { l with tec := min (l.tec + 4) 255 }

theorem State.tecUp_moves (moves : min (s.link.tec + 4) 255 ≠ s.link.tec) : s.tecUp = s.struck.judgeLink := if_neg (fun h => moves h.1)

theorem State.tecUp_struck (s : State) : Struck s s.tecUp := by
  by_cases stays : min (s.link.tec + 4) 255 = s.link.tec
  · have full : s.tecUp = s := if_pos ⟨stays, rfl⟩
    rw [full]
    exact ⟨stays.symm, rfl, rfl, rfl, rfl⟩
  have struck : Struck s s.struck := ⟨rfl, rfl, rfl, rfl, rfl⟩
  rw [State.tecUp_moves stays]
  unfold State.judgeLink
  split
  · exact Struck.steady (t := s.struck.onLink fun l => { l with state := .detached, quiet := .from 0 }) ⟨rfl, rfl, rfl, rfl, rfl⟩
      ((Steady.refl _).seqDetached).admDetached
  split
  · exact Struck.steady (t := s.struck.onLink fun l => { l with state := .reticent }) ⟨rfl, rfl, rfl, rfl, rfl⟩
      ((Steady.refl _).sticky .reticentEntered).admReticent
  split
  · exact Struck.steady (t := s.struck.onLink fun l => { l with state := .engaged }) ⟨rfl, rfl, rfl, rfl, rfl⟩ (Steady.refl _).admEngaged
  · exact struck

theorem State.onTx_uncopied (h : s.tx.copyFrom = none) : (s.onTx fun t => { t with copyFrom := none }) = s := by
  show { s with tx := { s.tx with copyFrom := none } } = s
  rw [← h]

/-- The own copy's end as TEC's rise alone: given up, or REJECTED (R136, R140, R141). -/
theorem exec_copyFailed {s : State} {c : Instr} (running : s.loader.phase = .running) (role : s.link.role = .sender)
    (copy : s.tx.copyFrom ≠ none) (cause : c = .frameAbandon ∨ c = .ownFrameEnd ⟨false, true, false⟩) :
    ∃ u, exec c s = done (u.tecUp.onTx fun t => { t with copyFrom := none }) ∧ Untouched [.link, .tx] s u
      ∧ u.link.state = s.link.state ∧ u.link.tec = s.link.tec ∧ u.link.recCount = s.link.recCount ∧ u.link.medium = s.link.medium
      ∧ u.link.copy = none ∧ u.link.role = (if c = .frameAbandon then .receiver else .none)
      ∧ { u.tx with copyFrom := none } = { s.tx with copyFrom := none } := by
  rcases cause with rfl | rfl
  · obtain ⟨u, hu⟩ : ∃ u, u = (s.onLink fun l => { l with role := .receiver, copy := none }).onTx fun t => { t with copyFrom := none } :=
      ⟨_, rfl⟩
    have place : u.tecUp.tx.copyFrom = none := u.tecUp_struck.place.trans (by rw [hu]; rfl)
    have run : exec .frameAbandon s = done u.tecUp := hu ▸ congrArg done (if_pos (State.sending_of_role running role))
    refine ⟨u, by rw [run, State.onTx_uncopied place], ?_⟩
    subst hu
    exact ⟨((Untouched.onLink s _).mono (by decide)).trans ((Untouched.onTx _ _).mono (by decide)), rfl, rfl, rfl, rfl, rfl, rfl, rfl⟩
  · obtain ⟨slot, from'⟩ := Option.ne_none_iff_exists'.1 copy
    have place : (s.frameOver none).tecUp.tx.copyFrom = some slot := (s.frameOver none).tecUp_struck.place.trans from'
    refine ⟨s.frameOver none, ?_, (Untouched.onLink s _).mono (by decide), rfl, rfl, rfl, rfl, rfl, rfl, rfl⟩
    rw [exec_ownFrameEnd running role]
    exact congrArg done (State.handOutcome_failed (o := .rejected) place (.inl rfl))

/-- From 92 on a rise of TEC makes an ENGAGED node RETICENT, and from 188 on it detaches a node on the line (R143). -/
theorem State.tecUp_enterReticent (engaged : s.link.state = .engaged) (high : 92 ≤ s.link.tec) (low : s.link.tec < 188) :
    s.tecUp = s.struck.enterReticent :=
  (State.tecUp_moves (by omega)).trans (State.judgeLink_reticent (s := s.struck) (show min (s.link.tec + 4) 255 < 192 by omega)
    engaged (.inl (show 96 ≤ min (s.link.tec + 4) 255 by omega)))
theorem State.tecUp_enterDetached (line : s.onLine = true) (high : 188 ≤ s.link.tec) (moves : min (s.link.tec + 4) 255 ≠ s.link.tec) :
    s.tecUp = s.struck.enterDetached := by
  have line' : s.struck.onLine = true := (onLine_congr (s := s) (t := s.struck) rfl).trans line
  exact (State.tecUp_moves moves).trans (if_pos ⟨line', show 192 ≤ min (s.link.tec + 4) 255 by omega⟩)

/-! ### Entry to RETICENT and to DETACHED -/

/-- A claiming step yields as the node becomes RETICENT (R39, R48). -/
theorem State.enterReticent_yields (own : s.adm.own = .claiming ∨ s.adm.own = .runPending) :
    s.enterReticent.adm.own = .waiting
    ∧ s.enterReticent.tx.own = some (.announce .wait s.ownKey s.settings.leaseLife s.ownPairs)
    ∧ s.enterReticent.Awaits (.ownUpdate .cip s.ownPairs s.ownKey .waiting) := by
  have yields : s.enterReticent = ((s.onLink fun l => { l with state := .reticent }).sticky .reticentEntered).yieldStep := if_pos own
  have returned := ((s.onLink fun l => { l with state := .reticent }).sticky .reticentEntered).yieldStep_returned
  rw [yields]
  exact ⟨returned.own, returned.sent, returned.placed⟩

theorem State.enterReticent_quiet (h1 : s.adm.own ≠ .claiming) (h2 : s.adm.own ≠ .runPending) :
    s.enterReticent = (s.onLink fun l => { l with state := .reticent }).sticky .reticentEntered :=
  if_neg fun k => k.elim h1 h2

theorem State.stepLetGo_own (s : State) : s.stepLetGo.adm.own = .none := by
  unfold State.stepLetGo
  split
  · exact (State.stopRun_letGo (by decide)).1
  · assumption
  · rfl

/-- A round that neither claims nor runs keeps its standing request while the own step goes (R45, R49). -/
theorem State.stepLetGo_standing (h1 : s.seq.state ≠ .claiming) (h2 : s.seq.state ≠ .running) :
    s.stepLetGo.adm.standing = s.adm.standing := by
  have discards : s.stopReply .linkLost = .discards := if_neg fun k => k.2.elim h1 h2
  have stopped : (s.stopRun .linkLost).adm.standing = s.adm.standing := by
    unfold State.stopRun
    rw [discards]
    exact State.placeOp_standing s _
  unfold State.stepLetGo
  split
  · exact stopped
  · rfl
  · exact State.placeOp_standing s _

theorem State.dropHold_standing (i : Fin 4) : (s.dropHold i).adm.standing = s.adm.standing := by
  unfold State.dropHold
  split
  · split
    · exact State.placeOp_standing s _
    · rfl
  · rfl

/-- The class-A slots are empty, the own step NONE and the learning timer stopped, whatever the round does (R49). -/
theorem State.admDetached_empties (s : State) : s.admDetached.adm.own = .none ∧ s.admDetached.tx.own = none
    ∧ s.admDetached.adm.learning = .stopped ∧ (∀ i : Fin 4, s.admDetached.tx.product[i] = none)
    ∧ s.admDetached.adm.standing = s.stepLetGo.adm.standing := by
  obtain ⟨-, ownD, -⟩ := State.dropHolds_spec allFour s.stepLetGo
  have standingD : (allFour.foldl State.dropHold s.stepLetGo).adm.standing = s.stepLetGo.adm.standing :=
    List.foldlRecOn (motive := fun u : State => u.adm.standing = s.stepLetGo.adm.standing) allFour State.dropHold rfl
      fun _ k _ _ => State.dropHold_standing _ |>.trans k
  rw [State.admDetached_eq]
  generalize allFour.foldl State.dropHold s.stepLetGo = d at *
  obtain ⟨-, adm, own, product⟩ := State.emptyProducts_spec allFour (d.placeOwn none)
  rw [State.onAdm_adm, State.onAdm_tx, adm, own]
  exact ⟨ownD.trans s.stepLetGo_own, rfl, rfl, fun i => (product i).trans (if_pos (List.mem_finRange i)), standingD⟩

/-- At detachment a round that does not run keeps its request, and no longer claims (R80). -/
theorem State.seqDetached_keeps (h : s.seq.state ≠ .running) : s.seqDetached.adm = s.adm
    ∧ s.seqDetached.seq.state ≠ .claiming ∧ s.seqDetached.seq.state ≠ .running := by
  unfold State.seqDetached
  split
  · rw [State.setRound_adm, State.setRound_seq]
    exact ⟨rfl, nofun, nofun⟩
  · rename_i run; exact absurd run h
  · rename_i h1 h2; exact ⟨rfl, h1, h⟩

theorem State.enterDetached_spec (s : State) : s.enterDetached.link.state = .detached ∧ s.enterDetached.link.quiet = .from 0
    ∧ s.enterDetached.adm.own = .none ∧ s.enterDetached.tx.own = none ∧ s.enterDetached.adm.learning = .stopped
    ∧ (∀ i : Fin 4, s.enterDetached.tx.product[i] = none)
    ∧ (s.seq.state ≠ .running → s.enterDetached.adm.standing = s.adm.standing) := by
  unfold State.enterDetached
  obtain ⟨z, hz⟩ : ∃ z, z = s.onLink fun l => { l with state := .detached, quiet := .from 0 } := ⟨_, rfl⟩
  rw [← hz]
  have steady := ((Steady.refl z).seqDetached).admDetached
  obtain ⟨own, slot, learning, product, standing⟩ := z.seqDetached.admDetached_empties
  refine ⟨by rw [steady.link, hz]; rfl, by rw [steady.link, hz]; rfl, own, slot, learning, product, fun idle => ?_⟩
  obtain ⟨adm, notClaiming, notRunning⟩ := State.seqDetached_keeps (s := z) (by rw [hz]; exact idle)
  rw [standing, State.stepLetGo_standing notClaiming notRunning, adm, hz]
  rfl
end

end Sys2Proof.Machine

open Sys2Proof Sys2Proof.Machine

/-- Settles O45: the end of the frame leads to one state that takes the outcome, in ENGAGED and in RETICENT; a current delivery is
followed slot by slot, and a rise of TEC into the state that the node enters. -/
theorem ownCopyEnds : Obligations.OwnCopyEnds := by
  refine ⟨fun seen s slot running role medium copy engaged tec recCount => ?_,
    fun seen s slot running role medium copy reticent tec _ reject hold accept => ?_, fun c s running role medium copy cause line => ?_⟩
  · obtain ⟨w, run, ended, tx, linkW⟩ := exec_ownFrameEnd_engaged running role engaged tec recCount seen
    have from' : w.tx.copyFrom = some slot := tx ▸ copy
    obtain ⟨o, ho⟩ : ∃ o, o = copyOutcome seen := ⟨_, rfl⟩
    rw [← ho] at run linkW
    obtain ⟨gone, link⟩ := State.handOutcome_over from' o
    rw [linkW] at link
    have busy : (w.handOutcome o).link.medium = .busy := by rw [link]; exact medium
    have board : (w.handOutcome o).board = s.board :=
      (State.fixed_eq (State.fixed_handOutcome w o)).2.2.2.1.trans (ended.board (by decide))
    refine ⟨_, run, ?_, ?_, ?_, ?_, ?_, ?_, fun failed => ?_, fun reject hold => ?_, fun reject hold accept => ?_⟩
    · rw [State.finish_link_busy _ busy, link]; exact engaged
    · rw [State.finish_link_busy _ busy, link]
    · rw [State.finish_link_busy _ busy, link]
    · rw [State.finish_link_busy _ busy, link]
    · rw [State.finish_tx_busy _ busy]; exact gone
    · rw [State.finish_board]; exact board
    · have outcome : o = .rejected ∨ o = .unanswered := ho ▸ copyOutcome_failed failed
      have raised : o.tecAfter s.link.tec = s.link.tec + 4 := by rcases outcome with rfl | rfl <;> rfl
      rw [State.finish_link_busy _ busy, State.finish_tx_busy _ busy, link, State.handOutcome_failed from' outcome]
      exact ⟨((ended.mono (by decide)).trans ((Untouched.onTx w _).mono (by decide))).finish, raised, by rw [State.onTx_tx, tx]⟩
    · obtain rfl : o = .held := ho.trans (copyOutcome_held reject hold)
      rw [State.finish_link_busy _ busy, State.finish_tx_busy _ busy, link, State.handOutcome_held from']
      exact ⟨((ended.mono (by decide)).trans ((Untouched.onTx w _).mono (by decide))).finish, rfl, by rw [State.onTx_tx, tx]⟩
    · obtain rfl : o = .delivered := ho.trans (copyOutcome_delivered reject hold accept)
      have steady := Steady.handDelivered from'
      have hand := State.handOutcome_delivered from'
      have doneTx := w.copyDone_tx slot
      have done' : Untouched [.link, .tx] s (w.copyDone slot) := (ended.mono (by decide)).trans
        (((Untouched.onTx w _).mono (by decide)).trans ((Untouched.onTx _ _).mono (by decide)))
      rw [tx] at doneTx hand
      generalize w.copyDone slot = v at *
      have copyOver : CopyOver s v := ⟨done', by rw [doneTx], by rw [doneTx], by rw [doneTx]⟩
      rw [State.finish_link_busy _ busy, State.finish_tx_busy _ busy, steady.turn, steady.count, link, doneTx]
      refine ⟨rfl, rfl, rfl, fun marked => ?_, fun clear => ?_⟩
      · rw [hand, if_pos marked, doneTx]
        exact ⟨done'.finish, rfl, rfl, rfl⟩
      · rw [hand, if_neg (by rw [clear]; decide)]
        simp only [State.finish_adm, State.finish_updates, State.finish_log, State.finish_seq, State.finish_flag]
        refine ⟨?_, ?_, ?_, ?_, ?_, ?_⟩
        · rintro rfl x sent
          exact copyOver.ownDelivery sent
        · rintro i rfl
          exact copyOver.productDelivery i
        · rintro rfl
          exact copyOver.statusDelivery
        · rintro rfl r rest queue unfinished
          by_cases more : s.log.nextFragment + 1 < r.fragmentCount
          · obtain ⟨log, frame⟩ := copyOver.fragment queue more
            rw [if_pos more, log]
            exact ⟨⟨rfl, rfl⟩, fun _ => ⟨rfl, frame.finish⟩⟩
          · obtain ⟨left, next, composing⟩ := copyOver.lastFragment queue more unfinished
            rw [if_neg more]
            exact ⟨⟨left, next⟩, fun c => ⟨(composing c).1, (composing c).2.finish⟩⟩
        · rintro rfl r rest queue more
          obtain ⟨log, frame⟩ := copyOver.fragment queue more
          exact ⟨log, frame.finish⟩
        · rintro rfl r rest x queue waits room last closing none'
          exact copyOver.lastFragment_takes queue waits room last closing none'
  · obtain ⟨x, run, from', board, linkX, judged⟩ :=
      exec_ownFrameEnd_reticent running role copy reticent tec (copyOutcome_delivered reject hold accept)
    have handed := Steady.handDelivered from'
    obtain ⟨gone, link⟩ := State.handOutcome_over from' .delivered
    have busy : (x.handOutcome .delivered).link.medium = .busy := by rw [link, linkX]; exact medium
    refine ⟨_, run, ?_, ?_, ?_, ?_, ?_, ?_, ?_⟩
    · rw [State.finish_link_busy _ busy, link, linkX]
    · rw [State.finish_link_busy _ busy, link, linkX]
    · rw [State.finish_link_busy _ busy, link, linkX]
    · rw [State.finish_link_busy _ busy, link, linkX]
    · rw [State.finish_tx_busy _ busy]; exact gone
    · rw [State.finish_board, (State.fixed_eq (State.fixed_handOutcome x .delivered)).2.2.2.1, board]
    · rw [State.finish_link_busy _ busy, State.finish_adm, link]
      split
      · rename_i back
        rw [if_pos back] at judged
        exact ⟨judged.1, fun own active => handed.asked (judged.2 own active)⟩
      · rename_i stays
        rw [if_neg stays] at judged
        exact judged
  · obtain ⟨u, run, frame, state, tec, recCount, mediumU, none', roleU, tx⟩ := exec_copyFailed running role copy cause
    have struck := u.tecUp_struck
    have before : Untouched [.link, .tx] s u.struck := frame.trans ((Untouched.onLink u _).mono (by decide))
    have busy : (u.tecUp.onTx fun t => { t with copyFrom := none }).link.medium = .busy := struck.medium.trans (mediumU.trans medium)
    have raised : (u.tecUp.onTx fun t => { t with copyFrom := none }).finish.link.tec = min (s.link.tec + 4) 255 := by
      rw [State.finish_link_busy _ busy, ← tec]; exact struck.tec
    refine ⟨_, run, raised, ?_, ?_, ?_, fun engaged low rec' => ?_, fun engaged high low => ?_, fun high moved => ?_⟩
    · rw [State.finish_link_busy _ busy, ← none']; exact struck.copy
    · rw [State.finish_tx_busy _ busy]; rfl
    · rw [State.finish_link_busy _ busy, ← roleU]; exact struck.role
    · have still : u.tecUp = u.onLink fun l => { l with tec := l.tec + 4 } :=
        State.tecMove_still (state.trans engaged) (tec ▸ low) (recCount ▸ rec') .rejected
      rw [State.finish_link_busy _ busy, State.finish_tx_busy _ busy, still]
      exact ⟨((frame.trans ((Untouched.onLink u _).mono (by decide))).trans ((Untouched.onTx _ _).mono (by decide))).finish,
        state.trans engaged, tx⟩
    · obtain ⟨flag, -, link⟩ := State.enterReticent_spec (s := u.struck)
      have adm : u.struck.adm = s.adm := before.adm (by decide)
      have settings : u.struck.settings = s.settings := before.settings (by decide)
      rw [State.finish_link_busy _ busy, State.finish_flag, State.finish_adm, State.finish_updates, State.finish_tx_busy _ busy,
        State.tecUp_enterReticent (state.trans engaged) (tec ▸ high) (tec ▸ low), State.onTx_link, State.onTx_adm, State.onTx_updates,
        State.onTx_tx]
      refine ⟨congrArg Link.state link, flag, fun own => ?_, fun notClaiming notPending => ?_⟩
      · obtain ⟨waits, sent, placed⟩ := State.enterReticent_yields (adm.symm ▸ own)
        rw [State.ownKey_congr adm settings, State.ownPairs_congr (congrArg Admission.standing adm)] at placed sent
        exact ⟨waits, settings ▸ sent, placed⟩
      · rw [State.enterReticent_quiet (adm.symm ▸ notClaiming) (adm.symm ▸ notPending)]
        exact ⟨((before.mono (by decide)).trans (((Untouched.onLink u.struck _).mono (by decide)).trans
          (((Untouched.sticky _ _).mono (by decide)).trans ((Untouched.onTx _ _).mono (by decide))))).finish, tx⟩
    · obtain ⟨link, quiet, own, slot, learning, product, standing⟩ := u.struck.enterDetached_spec
      rw [before.seq (by decide), before.adm (by decide)] at standing
      rw [State.finish_link_busy _ busy, State.finish_adm, State.finish_tx_busy _ busy, State.tecUp_enterDetached
        ((onLine_congr state).trans line) (tec ▸ high) (by rw [raised] at moved; omega), State.onTx_link, State.onTx_adm, State.onTx_tx]
      generalize u.struck.enterDetached = d at *
      exact ⟨link, quiet, own, slot, learning, product, standing⟩

end

section
/-! What every step ends with: the lines driven from the state that it leaves (R59, R87, R111, R128, R129). -/

namespace Sys2Proof.Machine

/-- Every command ends in `done` of its effect. -/
theorem exec_done (c : Instr) (s : State) : ∃ u, exec c s = done u := by
  by_cases hc : startsAfresh c
  · obtain rfl | rfl | rfl := hc <;> exact ⟨_, rfl⟩
  · obtain ⟨u, hu, -⟩ := exec_fixed c s hc
    exact ⟨u, hu⟩

/-- Whatever a step does, offering and driving come last. -/
theorem step_finish {s t : State} (h : step s = .next t) : ∃ u : State, t = u.finish := by
  have command {c : Instr} {v : State} (e : exec c v = .next t) : ∃ u : State, t = u.finish := by
    obtain ⟨u, hu⟩ := exec_done c v
    rw [hu] at e
    exact ⟨u, done_next e⟩
  obtain ⟨c, rest, e⟩ | ⟨c, e⟩ | e := step_cases h
  · exact command e
  · exact command e
  · exact ⟨_, e⟩

/-- The lines driven at the end of a command are those of the state that it leaves. -/
theorem State.finish_outputs (s : State) : s.finish.port.outputs = s.finish.lines := rfl

/-- Putting the divert state on its line leaves every other line to the pattern (R129). -/
theorem withDivert_getLsbD (line : Option (Fin 12)) (d : Divert) (p : BitVec 12) (i : Fin 12) :
    (withDivert line d p).getLsbD i.val = if line = some i then decide (d = .recover) else p.getLsbD i.val := by
  cases line with
  | none => rfl
  | some l =>
    by_cases same : l = i
    · subst same
      cases d <;> simp [withDivert]
    · have other : i.val ≠ l.val := fun h => same (Fin.ext h.symm)
      cases d <;> simp [withDivert, same, other]

/-- The presented divert state is RECOVER exactly while a step runs that has it so (R111). -/
theorem Verifier.presented_recover (v : Verifier) :
    decide (v.presented = .recover) = (decide (v.divert = .recover) && decide (v.mode ≠ .off ∧ v.mode ≠ .standby)) := by
  unfold Verifier.presented
  cases v.mode <;> simp [Mode.isRunning]

/-- One line of the pattern: by the state and the phase of the round (R87). -/
theorem State.pattern_getLsbD (s : State) (i : Nat) : s.pattern.getLsbD i =
    if s.seq.state = .running ∧ s.seq.phase = .burst then s.curStep.active.getLsbD i
    else if s.seq.state = .running ∧ s.seq.phase = .pause then s.curStep.pause.getLsbD i
    else s.settings.rest.getLsbD i := by
  unfold State.pattern
  cases s.seq.state <;> cases s.seq.phase <;> rfl

end Sys2Proof.Machine

open Sys2Proof Sys2Proof.Machine

/-- Settles O5: the lines are driven at the end of every step, each from the divert state or from the pattern. -/
theorem outputLinesFollow : Obligations.OutputLinesFollow := by
  intro s t h
  obtain ⟨u, ht⟩ := step_finish h
  have driven : t.port.outputs = t.lines := by rw [ht, State.finish_outputs]
  rw [driven]
  unfold State.lines
  refine ⟨fun stopped => if_neg (by simpa [State.isRunning] using stopped), fun runs i => ?_⟩
  rw [if_pos (by simpa [State.isRunning] using runs), withDivert_getLsbD, Verifier.presented_recover, State.pattern_getLsbD]

/-- Settles O15. -/
theorem settingsAndRecipesFixed : Obligations.SettingsAndRecipesFixed := by
  intro c s t e hc
  obtain ⟨u, hu, fixed⟩ := exec_fixed c s hc
  rw [hu] at e
  have same : t = u.finish := done_next e
  rw [same, State.finish_settings, State.finish_store]
  exact ⟨fixed.settings, fixed.store⟩

end

section
/-! Which recipes of an image are usable, what is kept of their steps, and which CHAIN flags stand (R56 to R67, R190, R191). -/

namespace Sys2Proof.Machine

/-! ### CHAIN flags -/

theorem chainValid_iff (prev st : Step) : chainValid prev st = true ↔ st.claims ≠ [] ∧ st.hold = false
    ∧ (∀ k ∈ st.claims, ∃ old ∈ prev.claims, old.resource = k.resource ∧ k.demand ≤ old.demand)
    ∧ ∀ old ∈ prev.claims, ∃ k ∈ st.claims, k.resource = old.resource := by
  simp only [chainValid, Bool.and_eq_true, decide_eq_true_eq, List.all_eq_true, List.any_eq_true, Bool.not_eq_true']
  tauto

/-- Beside the step before it, a step's flag fits exactly where it is valid against that step; a first step's never fits (R67). -/
theorem chainFits_iff (steps : Vector Step 20) (j : Fin 20) :
    (if h : 0 < j.val then chainValid steps[j.val - 1] steps[j] else false) = true ↔ ChainFits steps j := by
  unfold ChainFits
  by_cases first : 0 < j.val
  · have before (p : Fin 20) (h : p.val + 1 = j.val) : steps[p] = steps[j.val - 1] := by
      simp only [Fin.getElem_fin, ← h, Nat.add_sub_cancel]
    rw [dif_pos first, chainValid_iff]
    constructor
    · rintro ⟨claims, hold, behind⟩
      exact ⟨first, claims, hold, fun p h => (before p h).symm ▸ behind⟩
    · rintro ⟨-, claims, hold, behind⟩
      have at' := behind ⟨j.val - 1, by omega⟩ (Nat.sub_add_cancel first)
      exact ⟨claims, hold, at'⟩
  · rw [dif_neg first]
    exact iff_of_false nofun fun h => first h.1

/-- Whether a flag fits depends on the claims and the HOLD flags of the steps alone. -/
theorem ChainFits.congr {steps steps' : Vector Step 20} (claims : ∀ k : Fin 20, steps[k].claims = steps'[k].claims)
    (hold : ∀ k : Fin 20, steps[k].hold = steps'[k].hold) (j : Fin 20) : ChainFits steps j ↔ ChainFits steps' j := by
  simp only [ChainFits, claims, hold]

/-- Judging leaves of a step all but its flag, which up to the final index stands only where it fits (R67). -/
theorem judgeChains_get (final : Fin 20) (steps : Vector Step 20) (j : Fin 20) :
    ∃ flag, (judgeChains final steps)[j] = { steps[j] with chain := flag }
      ∧ (flag = true ↔ steps[j].chain = true ∧ (j ≤ final → ChainFits steps j)) := by
  obtain ⟨ok, valid⟩ : ∃ ok : Bool, ok = if h : 0 < j.val then chainValid steps[j.val - 1] steps[j] else false := ⟨_, rfl⟩
  have get : (judgeChains final steps)[j] = if j ≤ final ∧ steps[j].chain = true ∧ ok = false
      then { steps[j] with chain := false } else steps[j] := by
    rw [valid]
    simp only [judgeChains, Fin.getElem_fin, Vector.getElem_ofFn]
  have fits : ok = true ↔ ChainFits steps j := by rw [valid]; exact chainFits_iff steps j
  rw [get, ← fits]
  by_cases cleared : j ≤ final ∧ steps[j].chain = true ∧ ok = false
  · refine ⟨false, if_pos cleared, iff_of_false nofun fun h => ?_⟩
    cases cleared.2.2.symm.trans (h.2 cleared.1)
  · refine ⟨steps[j].chain, if_neg cleared, fun set => ⟨set, fun le => ?_⟩, fun h => h.1⟩
    exact Bool.of_not_eq_false fun invalid => cleared ⟨le, set, invalid⟩

theorem judgeChains_fits (final : Fin 20) (steps : Vector Step 20) (j : Fin 20) :
    ChainFits (judgeChains final steps) j ↔ ChainFits steps j := by
  refine ChainFits.congr (fun k => ?_) (fun k => ?_) j
  all_goals
    obtain ⟨flag, get, -⟩ := judgeChains_get final steps k
    rw [get]

theorem judgeChains_chain {final : Fin 20} (steps : Vector Step 20) {j : Fin 20} (le : j ≤ final) :
    (judgeChains final steps)[j].chain = true ↔ steps[j].chain = true ∧ ChainFits (judgeChains final steps) j := by
  obtain ⟨flag, get, set⟩ := judgeChains_get final steps j
  rw [judgeChains_fits, get, set]
  exact and_congr_right fun _ => forall_prop_of_true le

/-- Judging changes the steps exactly where it clears a flag. -/
theorem judgeChains_ne (final : Fin 20) (steps : Vector Step 20) : (judgeChains final steps != steps) = true ↔
    ∃ j : Fin 20, j ≤ final ∧ steps[j].chain = true ∧ (judgeChains final steps)[j].chain = false := by
  rw [bne_iff_ne]
  constructor
  · intro changed
    by_contra kept
    push Not at kept
    have same (j : Fin 20) : (judgeChains final steps)[j] = steps[j] := by
      have stands := kept j
      obtain ⟨flag, get, set⟩ := judgeChains_get final steps j
      rw [get] at stands ⊢
      have : flag = steps[j].chain := by
        rw [Bool.eq_iff_iff, set]
        exact ⟨fun h => h.1, fun on => ⟨on, fun le => (set.1 (Bool.of_not_eq_false (stands le on))).2 le⟩⟩
      rw [this]
    exact changed (Vector.ext fun n small => same ⟨n, small⟩)
  · rintro ⟨j, -, set, cleared⟩ same
    rw [same, set] at cleared
    cases cleared

/-! ### Validation of a recipe -/

/-- Step j of a recipe is in use: the step count is at most 20 and above j, and no earlier step has LAST set (R56, R62). -/
def Recipe.InUse (r : Recipe) (j : Fin 20) : Prop :=
  r.stepCount ≤ 20 ∧ j.val < r.stepCount ∧ ∀ k : Fin 20, k < j → r.steps[k].last = false

/-- What validation finds and keeps of a recipe (R56, R62 to R67). -/
structure Recipe.Judged (c : Settings) (sets : Vector ConvSet 4) (r : Recipe) (v : Validated) : Prop where
  stepCount : v.recipe.stepCount = r.stepCount
  baseUrgency : v.recipe.baseUrgency = min r.baseUrgency 62
  usable : v.recipe.usable = true ↔ (1 ≤ r.stepCount ∧ r.stepCount ≤ 20)
    ∧ ∀ j, r.InUse j → stepUsable c sets r.steps[j].clamp = true
  unusable : v.unusable = !v.recipe.usable
  final : v.recipe.usable = true → ∀ j, j ≤ v.recipe.finalIndex ↔ r.InUse j
  kept : ∀ j, r.InUse j → ∃ flag, v.recipe.steps[j] = { r.steps[j].clamp with chain := flag }
  chain : v.recipe.usable = true → ∀ j, r.InUse j →
    (v.recipe.steps[j].chain = true ↔ r.steps[j].chain = true ∧ ChainFits v.recipe.steps j)
  ignored : v.chainIgnored = true ↔ v.recipe.usable = true
    ∧ ∃ j, r.InUse j ∧ r.steps[j].chain = true ∧ v.recipe.steps[j].chain = false

/-- The final index that validation finds (R62). -/
def Recipe.final (r : Recipe) : Fin 20 := finalIndexOf r.stepCount r.steps

/-- The steps of a recipe, those up to the final index clamped (R64, R65). -/
def Recipe.clamped (r : Recipe) : Vector Step 20 :=
  Vector.ofFn fun i : Fin 20 => if i ≤ r.final then r.steps[i].clamp else r.steps[i]

theorem Recipe.inUse_iff {r : Recipe} (count : 1 ≤ r.stepCount ∧ r.stepCount ≤ 20) (j : Fin 20) :
    j ≤ r.final ↔ r.InUse j := by
  rw [Recipe.final, le_finalIndexOf count.1 count.2]
  exact ⟨fun h => ⟨count.2, h⟩, fun h => h.2⟩

theorem Recipe.clamped_get {r : Recipe} {j : Fin 20} (used : r.InUse j) : r.clamped[j] = r.steps[j].clamp := by
  have ⟨most, within, _⟩ := used
  have le := (Recipe.inUse_iff ⟨by omega, most⟩ j).2 used
  simp only [Recipe.clamped, Fin.getElem_fin, Vector.getElem_ofFn, Fin.eta, if_pos le]

/-- Every step in use, clamped, is usable (R66). -/
def Recipe.AllUsable (c : Settings) (sets : Vector ConvSet 4) (r : Recipe) : Prop :=
  ∀ j, r.InUse j → stepUsable c sets r.steps[j].clamp = true

section
variable {c : Settings} {sets : Vector ConvSet 4} {r : Recipe}

theorem validateRecipe_badCount (bad : r.stepCount = 0 ∨ 20 < r.stepCount) : validateRecipe c sets r =
    ⟨{ r with baseUrgency := min r.baseUrgency 62, usable := false }, r.baseUrgency != min r.baseUrgency 62, true, false⟩ :=
  if_pos bad

/-- The test of all steps looks at those in use. -/
theorem Recipe.allUsable_iff (count : 1 ≤ r.stepCount ∧ r.stepCount ≤ 20) :
    ((List.finRange 20).all fun i => decide (r.final < i) || stepUsable c sets r.clamped[i]) = true ↔ r.AllUsable c sets := by
  simp only [List.all_eq_true, List.mem_finRange, true_imp_iff, Bool.or_eq_true, decide_eq_true_eq]
  refine forall_congr' fun j => ?_
  rw [← not_le, ← imp_iff_not_or, Recipe.inUse_iff count]
  exact imp_congr_right fun used => by rw [Recipe.clamped_get used]

theorem validateRecipe_allUsable (count : 1 ≤ r.stepCount ∧ r.stepCount ≤ 20) (all : r.AllUsable c sets) : validateRecipe c sets r =
    ⟨{ r with baseUrgency := min r.baseUrgency 62, steps := judgeChains r.final r.clamped, usable := true, finalIndex := r.final },
      r.baseUrgency != min r.baseUrgency 62 || r.clamped != r.steps, false, judgeChains r.final r.clamped != r.clamped⟩ :=
  (if_neg (by omega)).trans (if_pos ((Recipe.allUsable_iff count).2 all))

theorem validateRecipe_faulty (count : 1 ≤ r.stepCount ∧ r.stepCount ≤ 20) (some' : ¬ r.AllUsable c sets) :
    validateRecipe c sets r =
      ⟨{ r with baseUrgency := min r.baseUrgency 62, steps := r.clamped, usable := false, finalIndex := r.final },
        r.baseUrgency != min r.baseUrgency 62 || r.clamped != r.steps, true, false⟩ :=
  (if_neg (by omega)).trans (if_neg (mt (Recipe.allUsable_iff count).1 some'))

/-- Judging the clamped steps clears a flag exactly where one of a step in use stood in the image. -/
theorem Recipe.chains_ne (count : 1 ≤ r.stepCount ∧ r.stepCount ≤ 20) : (judgeChains r.final r.clamped != r.clamped) = true ↔
    ∃ j, r.InUse j ∧ r.steps[j].chain = true ∧ (judgeChains r.final r.clamped)[j].chain = false := by
  rw [judgeChains_ne]
  refine exists_congr fun j => ?_
  rw [Recipe.inUse_iff count]
  exact and_congr_right fun used => by rw [Recipe.clamped_get used]; rfl

theorem Recipe.chains_chain (count : 1 ≤ r.stepCount ∧ r.stepCount ≤ 20) {j : Fin 20} (used : r.InUse j) :
    (judgeChains r.final r.clamped)[j].chain = true ↔ r.steps[j].chain = true ∧ ChainFits (judgeChains r.final r.clamped) j := by
  rw [judgeChains_chain r.clamped ((Recipe.inUse_iff count j).2 used), Recipe.clamped_get used]
  rfl

theorem validateRecipe_judged : r.Judged c sets (validateRecipe c sets r) := by
  by_cases bad : r.stepCount = 0 ∨ 20 < r.stepCount
  · have unused (j : Fin 20) : ¬ r.InUse j := by rintro ⟨most, within, -⟩; omega
    rw [validateRecipe_badCount bad]
    exact ⟨rfl, rfl, iff_of_false nofun fun h => by omega, rfl, nofun, fun j used => absurd used (unused j), nofun,
      iff_of_false nofun nofun⟩
  · have count : 1 ≤ r.stepCount ∧ r.stepCount ≤ 20 := by omega
    by_cases all : r.AllUsable c sets
    · rw [validateRecipe_allUsable count all]
      refine ⟨rfl, rfl, iff_of_true rfl ⟨count, all⟩, rfl, fun _ => Recipe.inUse_iff count, fun j used => ?_, fun _ j used => ?_, ?_⟩
      · obtain ⟨flag, get, -⟩ := judgeChains_get r.final r.clamped j
        exact ⟨flag, by rw [get, Recipe.clamped_get used]⟩
      · exact Recipe.chains_chain count used
      · simp only [Recipe.chains_ne count, true_and]
    · rw [validateRecipe_faulty count all]
      exact ⟨rfl, rfl, iff_of_false nofun fun h => all h.2, rfl, nofun, fun j used => ⟨_, Recipe.clamped_get used⟩, nofun,
        iff_of_false nofun nofun⟩
end

/-! ### Usable steps -/

/-- A step has none of the faults of R66. -/
structure Step.Usable (c : Settings) (sets : Vector ConvSet 4) (st : Step) : Prop where
  count : st.claimCount ≤ 3
  claims : ∀ k ∈ st.claims, 1 ≤ k.demand ∧ k.demand ≤ c.capacityAt k.resource
  distinct : (st.claims.map (·.resource)).Nodup
  set : ∀ n, st.convSet = .set n → sets[n].usable = true ∧ st.cmin ≤ st.cmax
  named : ∀ n, st.convSet ≠ .bad n
  routed : ∀ n, st.routing ≠ .bad n
  diverted : st.routing = .divert → st.convSet ≠ .none

/-- The conversion set that a step names is usable and its band in order; a step that names none does not divert (R66). -/
def Step.setOk (sets : Vector ConvSet 4) (st : Step) : Bool :=
  match st.convSet with
  | .none => decide (st.routing ≠ .divert)
  | .set n => sets[n].usable && decide (st.cmin ≤ st.cmax)
  | .bad _ => false

/-- The routing byte of a step has a meaning (R66, R191). -/
def Step.routeOk (st : Step) : Bool :=
  match st.routing with
  | .bad _ => false
  | _ => true

theorem Step.setOk_iff (sets : Vector ConvSet 4) (st : Step) : st.setOk sets = true ↔
    (∀ n, st.convSet = .set n → sets[n].usable = true ∧ st.cmin ≤ st.cmax)
      ∧ (∀ n, st.convSet ≠ .bad n) ∧ (st.routing = .divert → st.convSet ≠ .none) := by
  unfold Step.setOk
  cases st.convSet <;> simp

theorem Step.routeOk_iff (st : Step) : st.routeOk = true ↔ ∀ n, st.routing ≠ .bad n := by
  unfold Step.routeOk
  cases st.routing <;> simp

theorem claimOk_iff (c : Settings) (k : Claim) : claimOk c k = true ↔ 1 ≤ k.demand ∧ k.demand ≤ c.capacityAt k.resource := by
  rw [claimOk, decide_eq_true_eq]
  omega

theorem stepUsable_iff (c : Settings) (sets : Vector ConvSet 4) (st : Step) : stepUsable c sets st = true ↔ st.Usable c sets := by
  have value : stepUsable c sets st = (decide (st.claimCount ≤ 3) && st.claims.all (claimOk c)
      && decide (st.claims.map (·.resource)).Nodup && st.setOk sets && st.routeOk) := rfl
  simp only [value, Bool.and_eq_true, decide_eq_true_eq, List.all_eq_true, claimOk_iff, Step.setOk_iff, Step.routeOk_iff]
  exact ⟨fun ⟨⟨⟨⟨count, claims⟩, distinct⟩, set, named, diverted⟩, routed⟩ =>
      ⟨count, claims, distinct, set, named, routed, diverted⟩,
    fun ⟨count, claims, distinct, set, named, routed, diverted⟩ =>
      ⟨⟨⟨⟨count, claims⟩, distinct⟩, set, named, diverted⟩, routed⟩⟩

section
variable {bytes : List Byte} {i : Fin 4} {j : Fin 20} {st : Step}

/-! ### What is kept of a step -/

theorem setRefByte_eq_set {n : Nat} {m : Fin 4} : setRefByte n = .set m ↔ n = m.val := by
  unfold setRefByte
  by_cases unset : n = 255
  · have : n ≠ m.val := by omega
    simp only [if_pos unset, reduceCtorEq, this]
  · by_cases named : n < 4
    · simp [unset, named, Fin.ext_iff]
    · have : n ≠ m.val := by omega
      simp [unset, named, this]

theorem routingByte_iff (n : Nat) : (routingByte n = .drain ↔ n = 0) ∧ (routingByte n = .recover ↔ n = 1)
    ∧ (routingByte n = .divert ↔ n = 2) := by
  match n with
  | 0 => decide
  | 1 => decide
  | 2 => decide
  | n + 3 => simp [routingByte]

/-- Bit k of the flag byte of a step record (R190). -/
theorem stepFlag (i : Fin 4) (j : Fin 20) {k : Nat} (small : k < 8) :
    (BitVec.ofNat 8 (byteAt 255 (stepBytes bytes i j) 31)).getLsbD k = decide (stepByte bytes i j 31 / 2 ^ k % 2 = 1) := by
  rw [byteAt_stepBytes i j (by decide), BitVec.getLsbD_ofNat, Nat.testBit_eq_decide_div_mod_eq]
  simp [small]

/-- A step record, read and clamped, keeps what R190 gives, whatever becomes of its CHAIN flag (R64, R65). -/
theorem readStep_kept (bytes : List Byte) (i : Fin 4) (j : Fin 20) (flag : Bool) :
    StepKept bytes i j { (readStep (stepBytes bytes i j)).clamp with chain := flag } where
  claimCount := byteAt_stepBytes i j (by decide)
  claims k := by
    show ((List.range _).map _)[k]? = _
    rw [List.getElem?_map, byteAt_stepBytes i j (by decide)]
    by_cases within : k < 3 ∧ k < stepByte bytes i j 0
    · rw [if_pos within, List.getElem?_range (by omega), Option.map_some, byteAt_stepBytes i j (by omega),
        byteAt_stepBytes i j (by omega)]
    · rw [if_neg within, List.getElem?_eq_none (by rw [List.length_range]; omega), Option.map_none]
  patterns := by
    rw [← wordAt_stepBytes i j (by decide), ← wordAt_stepBytes i j (by decide)]
    exact ⟨BitVec.toNat_ofNat .., BitVec.toNat_ofNat ..⟩
  unset := by
    rw [← byteAt_stepBytes i j (by decide)]
    exact setRefByte_eq_none
  set n := by
    rw [← byteAt_stepBytes i j (by decide)]
    exact setRefByte_eq_set
  tmin := by rw [← wordAt_stepBytes i j (by decide)]; rfl
  span := by rw [← wordAt_stepBytes i j (by decide)]; rfl
  conc named := by
    have set : ¬ (readStep (stepBytes bytes i j)).convSet = .none := by
      show ¬ setRefByte _ = _
      rw [setRefByte_eq_none, byteAt_stepBytes i j (by decide)]
      omega
    rw [← wordAt_stepBytes i j (by decide), ← wordAt_stepBytes i j (by decide)]
    exact ⟨if_neg set, if_neg set⟩
  fmin := by rw [← wordAt_stepBytes i j (by decide)]; rfl
  contact := by rw [← wordAt_stepBytes i j (by decide)]; rfl
  grace := byteAt_stepBytes i j (by decide)
  limit := by rw [← wordAt_stepBytes i j (by decide)]; rfl
  repeats := by rw [← byteAt_stepBytes i j (by decide)]; rfl
  pauseTime := by rw [← wordAt_stepBytes i j (by decide)]; rfl
  routing := by
    rw [← byteAt_stepBytes i j (by decide)]
    exact routingByte_iff _
  last := (stepFlag i j (by decide)).trans (by rw [pow_zero, Nat.div_one])
  mark := stepFlag i j (by decide)
  hold := stepFlag i j (by decide)
  timed := stepFlag i j (by decide)

theorem readStep_chain (i : Fin 4) (j : Fin 20) :
    (readStep (stepBytes bytes i j)).chain = true ↔ stepByte bytes i j 31 / 8 % 2 = 1 :=
  (Bool.eq_iff_iff.1 (stepFlag (k := 3) i j (by decide))).trans decide_eq_true_iff

/-- A kept step lies within the ranges of R57, its order of limit and contact time included. -/
theorem StepKept.ranges (kept : StepKept bytes i j st) : (1 ≤ st.contact ∧ st.contact ≤ 7200) ∧ (1 ≤ st.repeats ∧ st.repeats ≤ 16)
    ∧ st.pauseTime ≤ 600 ∧ (10 ≤ st.limit ∧ st.limit ≤ 14400) ∧ st.contact ≤ st.limit ∧ st.tmin ≤ 1500 ∧ st.span ≤ 500
    ∧ st.fmin ≤ 1000 := by
  have contact := kept.contact
  have limit := kept.limit
  have repeats := kept.repeats
  rw [kept.pauseTime, kept.tmin, kept.span, kept.fmin]
  omega

theorem StepKept.cmax_le (kept : StepKept bytes i j st) {n : Fin 4} (set : st.convSet = .set n) : st.cmax ≤ 9999 := by
  have byte := (kept.set n).1 set
  rw [(kept.conc (by omega)).2]
  exact Nat.min_le_right _ _

/-! ### Faulty steps -/

/-- A claim fits no present resource exactly where R66 finds fault with it. -/
theorem claim_faulty (c : Settings) (resource demand : Nat) :
    (∀ r : Res, r.val = resource → c.capacity[r] = 0 ∨ demand = 0 ∨ c.capacity[r] < demand)
      ↔ ¬ (1 ≤ demand ∧ demand ≤ c.capacityAt resource) := by
  unfold Settings.capacityAt
  by_cases present : resource < 16
  · rw [dif_pos present]
    constructor
    · intro faulty
      have misfit := faulty ⟨resource, present⟩ rfl
      simp only [Fin.getElem_fin] at misfit
      omega
    · rintro misfit r rfl
      rw [Fin.getElem_fin]
      omega
  · rw [dif_neg present]
    exact iff_of_true (fun r same => absurd r.isLt (by omega)) (by omega)

theorem StepKept.mem_claims (kept : StepKept bytes i j st) {k : Claim} : k ∈ st.claims ↔
    ∃ n : Fin 3, n.val < stepByte bytes i j 0 ∧ k = ⟨stepByte bytes i j (1 + 2 * n.val), stepByte bytes i j (2 + 2 * n.val)⟩ := by
  simp only [List.mem_iff_getElem?, kept.claims, Option.ite_none_right_eq_some, Option.some.injEq]
  exact ⟨fun ⟨n, ⟨small, within⟩, same⟩ => ⟨⟨n, small⟩, within, same.symm⟩,
    fun ⟨n, within, same⟩ => ⟨n.val, ⟨n.isLt, within⟩, same.symm⟩⟩

theorem StepKept.length_claims (kept : StepKept bytes i j st) : st.claims.length = min 3 (stepByte bytes i j 0) := by
  have past (k : Nat) : st.claims.length ≤ k ↔ ¬ (k < 3 ∧ k < stepByte bytes i j 0) := by
    rw [← List.getElem?_eq_none_iff, kept.claims]
    simp only [ite_eq_right_iff, reduceCtorEq, imp_false]
  have := past st.claims.length
  have := past (min 3 (stepByte bytes i j 0))
  omega

/-- The claims of a kept step name distinct resources exactly where no two of its records name the same. -/
theorem StepKept.nodup_iff (kept : StepKept bytes i j st) : (st.claims.map (·.resource)).Nodup ↔
    ¬ ∃ k l : Fin 3, k < l ∧ l.val < stepByte bytes i j 0 ∧ stepByte bytes i j (1 + 2 * k.val) = stepByte bytes i j (1 + 2 * l.val) := by
  have at' {n : Nat} (small : n < 3) (within : n < stepByte bytes i j 0) :
      (st.claims.map (·.resource))[n]? = some (stepByte bytes i j (1 + 2 * n)) := by
    rw [List.getElem?_map, kept.claims, if_pos ⟨small, within⟩]
    rfl
  rw [List.nodup_iff_getElem?_ne_getElem?, List.length_map, kept.length_claims]
  constructor
  · rintro distinct ⟨k, l, below, within, same⟩
    refine distinct k.val l.val below (by omega) ?_
    rw [at' k.isLt (by omega), at' l.isLt within, same]
  · intro distinct k l below within same
    rw [at' (by omega) (by omega), at' (by omega) (by omega), Option.some.injEq] at same
    have second : l < stepByte bytes i j 0 := by omega
    exact distinct ⟨⟨k, by omega⟩, ⟨l, by omega⟩, below, second, same⟩

theorem StepKept.named_iff (kept : StepKept bytes i j st) :
    (∀ n, st.convSet ≠ .bad n) ↔ stepByte bytes i j 11 = 255 ∨ stepByte bytes i j 11 < 4 := by
  have unset := kept.unset
  have set := kept.set
  constructor
  · intro named
    cases ref : st.convSet with
    | none => exact .inl (unset.1 ref)
    | set m => exact .inr ((set m).1 ref ▸ m.isLt)
    | bad n => exact absurd ref (named n)
  · rintro (byte | byte) n bad
    · cases bad.symm.trans (unset.2 byte)
    · cases bad.symm.trans ((set ⟨_, byte⟩).2 rfl)

theorem StepKept.routed_iff (kept : StepKept bytes i j st) : (∀ n, st.routing ≠ .bad n) ↔ stepByte bytes i j 30 ≤ 2 := by
  obtain ⟨drain, recover, divert⟩ := kept.routing
  constructor
  · intro routed
    cases route : st.routing with
    | drain => have := drain.1 route; omega
    | recover => have := recover.1 route; omega
    | divert => have := divert.1 route; omega
    | bad n => exact absurd route (routed n)
  · intro byte n bad
    obtain zero | one | two : stepByte bytes i j 30 = 0 ∨ stepByte bytes i j 30 = 1 ∨ stepByte bytes i j 30 = 2 := by omega
    · cases bad.symm.trans (drain.2 zero)
    · cases bad.symm.trans (recover.2 one)
    · cases bad.symm.trans (divert.2 two)

/-- A kept step is usable exactly where R66 finds no fault in its record. -/
theorem StepKept.usable_iff (kept : StepKept bytes i j st) (c : Settings) {sets : Vector ConvSet 4}
    (usable : ∀ n : Fin 4, sets[n].usable = true ↔ min (convWord bytes n 5) 9999 ≤ min (convWord bytes n 3) 9999) :
    st.Usable c sets ↔ ¬ StepFaulty bytes c i j := by
  have named := kept.named_iff
  have routed := kept.routed_iff
  unfold StepFaulty
  constructor
  · rintro u (many | ⟨k, within, misfit⟩ | twin | noSet | ⟨n, byte, disorder⟩ | ⟨set, disorder⟩ | ⟨divert, unset⟩ | noRoute)
    · exact absurd (kept.claimCount ▸ u.count) (by omega)
    · exact (claim_faulty c _ _).1 misfit (u.claims _ (kept.mem_claims.2 ⟨k, within, rfl⟩))
    · exact kept.nodup_iff.1 u.distinct twin
    · have := named.1 u.named
      omega
    · have := (usable n).1 (u.set n ((kept.set n).2 byte)).1
      omega
    · have small : stepByte bytes i j 11 < 4 := (named.1 u.named).resolve_left set
      have band := (u.set ⟨_, small⟩ ((kept.set _).2 rfl)).2
      obtain ⟨cmin, cmax⟩ := kept.conc small
      omega
    · exact u.diverted (kept.routing.2.2.2 divert) (kept.unset.2 unset)
    · have := routed.1 u.routed
      omega
  · intro faultless
    simp only [not_or] at faultless
    obtain ⟨few, fit, distinct, set, order, band, divert, route⟩ := faultless
    refine ⟨by rw [kept.claimCount]; omega, fun k mem => ?_, kept.nodup_iff.2 distinct, fun n set => ?_, named.2 ?_,
      routed.2 (by omega), fun diverts unset => divert ⟨kept.routing.2.2.1 diverts, kept.unset.1 unset⟩⟩
    · obtain ⟨n, within, rfl⟩ := kept.mem_claims.1 mem
      by_contra misfit
      exact fit ⟨n, within, (claim_faulty c _ _).2 misfit⟩
    · have byte := (kept.set n).1 set
      obtain ⟨cmin, cmax⟩ := kept.conc (by omega)
      refine ⟨(usable n).2 ?_, ?_⟩
      · by_contra disorder
        exact order ⟨n, byte, by omega⟩
      · omega
    · have byte : stepByte bytes i j 11 < 256 := byteAt_lt ..
      omega
end

/-! ### The image -/

section
variable (bytes : List Byte)

theorem loadImage_set (n : Fin 4) : (loadImage bytes).store.sets[n] = (readConvSet (convBytes bytes n)).1 := by
  simp only [loadImage, convBytes, Fin.getElem_fin, Vector.getElem_ofFn]

/-- What an image gives of a conversion set, each field clamped (R61, R190). -/
theorem loadImage_set_kept (n : Fin 4) : ∃ k, (loadImage bytes).store.sets[n] = k ∧ k.alpha = min (convByte bytes n 0) 30
    ∧ k.slope = min (convWord bytes n 1) 1000 ∧ k.recover = min (convWord bytes n 3) 9999 ∧ k.drain = min (convWord bytes n 5) 9999
    ∧ (k.usable = true ↔ k.drain ≤ k.recover) := by
  refine ⟨_, loadImage_set bytes n, ?_⟩
  simp only [readConvSet, clampTo, Nat.zero_max, decide_eq_true_eq, byteAt_convBytes n (show 0 < 7 by decide),
    wordAt_convBytes n (show 1 + 1 < 7 by decide), wordAt_convBytes n (show 3 + 1 < 7 by decide),
    wordAt_convBytes n (show 5 + 1 < 7 by decide), and_self]

/-- What validation makes of recipe slot i of an image. -/
def loadedRecipe (i : Fin 4) : Validated :=
  validateRecipe (loadImage bytes).settings (loadImage bytes).store.sets (readRecipe (slotBytes bytes i))

theorem loadImage_slot (i : Fin 4) : (loadImage bytes).store.slots[i] = (loadedRecipe bytes i).recipe := by
  simp only [loadImage, loadedRecipe, slotBytes, Fin.getElem_fin, Vector.getElem_ofFn]

theorem loadImage_unusable : (loadImage bytes).unusable = true ↔ ∃ k, (loadedRecipe bytes k).unusable = true := by
  simp only [loadImage, loadedRecipe, slotBytes, List.any_eq_true, allFour, List.mem_finRange, true_and, Fin.getElem_fin,
    Vector.getElem_ofFn]

theorem loadImage_chainIgnored : (loadImage bytes).chainIgnored = true ↔ ∃ k, (loadedRecipe bytes k).chainIgnored = true := by
  simp only [loadImage, loadedRecipe, slotBytes, List.any_eq_true, allFour, List.mem_finRange, true_and, Fin.getElem_fin,
    Vector.getElem_ofFn]

variable {bytes}

theorem readRecipe_stepCount (i : Fin 4) : (readRecipe (slotBytes bytes i)).stepCount = slotByte bytes i 0 :=
  byteAt_slotBytes i (by decide)

theorem readRecipe_baseUrgency (i : Fin 4) : (readRecipe (slotBytes bytes i)).baseUrgency = slotByte bytes i 1 :=
  byteAt_slotBytes i (by decide)

/-- The step records below the step count are read (R56). -/
theorem readRecipe_step {i : Fin 4} {j : Fin 20} (within : j.val < slotByte bytes i 0) :
    (readRecipe (slotBytes bytes i)).steps[j] = readStep (stepBytes bytes i j) := by
  rw [← byteAt_slotBytes i (by decide)] at within
  simp only [readRecipe, Fin.getElem_fin, Vector.getElem_ofFn]
  exact if_pos within

theorem readRecipe_inUse (i : Fin 4) (j : Fin 20) : (readRecipe (slotBytes bytes i)).InUse j ↔ StepInUse bytes i j := by
  unfold Recipe.InUse StepInUse
  rw [readRecipe_stepCount]
  refine and_congr_right fun _ => and_congr_right fun within => forall₂_congr fun k below => ?_
  rw [readRecipe_step (by omega), readStep_last]

/-- What loading leaves of recipe slot i, by the bytes of the image (R56, R62 to R67, R190). -/
structure SlotKept (bytes : List Byte) (i : Fin 4) (v : Validated) : Prop where
  stepCount : v.recipe.stepCount = slotByte bytes i 0
  baseUrgency : v.recipe.baseUrgency = min (slotByte bytes i 1) 62
  usable : v.recipe.usable = true ↔ 1 ≤ slotByte bytes i 0 ∧ slotByte bytes i 0 ≤ 20
    ∧ ∀ j, StepInUse bytes i j → ¬ StepFaulty bytes (loadImage bytes).settings i j
  unusable : v.unusable = !v.recipe.usable
  final : v.recipe.usable = true → ∀ j, j ≤ v.recipe.finalIndex ↔ StepInUse bytes i j
  kept : ∀ j, StepInUse bytes i j → StepKept bytes i j v.recipe.steps[j]
  chain : v.recipe.usable = true → ∀ j, StepInUse bytes i j →
    (v.recipe.steps[j].chain = true ↔ stepByte bytes i j 31 / 8 % 2 = 1 ∧ ChainFits v.recipe.steps j)
  ignored : v.chainIgnored = true ↔ v.recipe.usable = true
    ∧ ∃ j, StepInUse bytes i j ∧ stepByte bytes i j 31 / 8 % 2 = 1 ∧ v.recipe.steps[j].chain = false

/-- A usable set is one whose DRAIN bound is at most its RECOVER bound, both clamped (R61). -/
theorem loadImage_set_usable (n : Fin 4) : (loadImage bytes).store.sets[n].usable = true ↔
    min (convWord bytes n 5) 9999 ≤ min (convWord bytes n 3) 9999 := by
  obtain ⟨k, same, -, -, recover, drain, usable⟩ := loadImage_set_kept bytes n
  rw [same, usable, recover, drain]

theorem loadedRecipe_kept (i : Fin 4) : SlotKept bytes i (loadedRecipe bytes i) := by
  obtain ⟨stepCount, baseUrgency, usable, unusable, final, kept, chain, ignored⟩ :=
    validateRecipe_judged (c := (loadImage bytes).settings) (sets := (loadImage bytes).store.sets) (r := readRecipe (slotBytes bytes i))
  simp only [readRecipe_stepCount, readRecipe_baseUrgency, readRecipe_inUse] at stepCount baseUrgency usable final kept chain ignored
  have read {j : Fin 20} (used : StepInUse bytes i j) : (readRecipe (slotBytes bytes i)).steps[j] = readStep (stepBytes bytes i j) :=
    readRecipe_step used.2.1
  refine ⟨stepCount, baseUrgency, usable.trans ?_, unusable, final, fun j used => ?_, fun ok j used => (chain ok j used).trans ?_,
    ignored.trans (and_congr_right fun _ => exists_congr fun j => and_congr_right fun used => ?_)⟩
  · rw [and_assoc]
    refine and_congr_right fun _ => and_congr_right fun _ => forall₂_congr fun j used => ?_
    rw [stepUsable_iff, read used]
    exact (readStep_kept bytes i j _).usable_iff _ loadImage_set_usable
  · obtain ⟨flag, same⟩ := kept j used
    rw [read used] at same
    exact same ▸ readStep_kept bytes i j flag
  · rw [read used, readStep_chain]
    rfl
  · rw [read used, readStep_chain]
    rfl

/-- Every step in use of a usable slot is usable (R66). -/
theorem SlotKept.usable_step {i : Fin 4} {v : Validated} (slot : SlotKept bytes i v) (ok : v.recipe.usable = true) {j : Fin 20}
    (used : StepInUse bytes i j) : v.recipe.steps[j].Usable (loadImage bytes).settings (loadImage bytes).store.sets :=
  ((slot.kept j used).usable_iff _ loadImage_set_usable).2 ((slot.usable.1 ok).2.2 j used)
end

end Sys2Proof.Machine

open Sys2Proof Sys2Proof.Machine

/-- Settles O58: each slot by what validation keeps of its bytes, each step in use by what its record and R66 give. -/
theorem usableRecipesInRange : Obligations.UsableRecipesInRange := by
  intro bytes i j d slot st
  have sets (n : Fin 4) := loadImage_set_kept bytes n
  obtain ⟨v, hv⟩ : ∃ v, v = loadedRecipe bytes i := ⟨_, rfl⟩
  have image : SlotKept bytes i v := hv ▸ loadedRecipe_kept i
  have same : slot = v.recipe := hv ▸ loadImage_slot bytes i
  have at' : st = v.recipe.steps[j] := congrArg (fun r : Recipe => r.steps[j]) same
  rw [at', same]
  refine ⟨?_, fun ok => ?_, fun n => ?_, image.stepCount, image.baseUrgency, image.usable, fun ok => image.final ok j, image.kept j,
    fun ok => image.chain ok j, ?_, ?_⟩
  · rw [image.baseUrgency]
    exact Nat.min_le_right _ _
  · obtain ⟨some', most, -⟩ := image.usable.1 ok
    rw [image.stepCount]
    refine ⟨some', most, ((image.final ok _).1 le_rfl).2.1, fun le => ?_⟩
    have used := (image.final ok j).1 le
    have kept := image.kept j used
    have usable := image.usable_step ok used
    obtain ⟨⟨contactLow, contactHigh⟩, ⟨repeatsLow, repeatsHigh⟩, pause, ⟨limitLow, limitHigh⟩, contact, tmin, span, fmin⟩ := kept.ranges
    refine ⟨contactLow, contactHigh, repeatsLow, repeatsHigh, pause, limitLow, limitHigh, contact, tmin, span, fmin, ?_,
      usable.distinct, usable.claims, fun n named => ?_, usable.named, usable.routed, usable.diverted, fun set => ?_⟩
    · rw [kept.length_claims]
      exact Nat.min_le_left _ _
    · obtain ⟨set, band⟩ := usable.set n named
      obtain ⟨k, conv, -, -, -, -, order⟩ := sets n
      refine ⟨set, ?_, band, kept.cmax_le named⟩
      rw [conv] at set ⊢
      exact order.1 set
    · obtain ⟨above, claims, hold, -⟩ := ((image.chain ok j used).1 set).2
      exact ⟨above, hold, claims⟩
  · obtain ⟨k, conv, fields⟩ := sets n
    rw [conv]
    exact fields
  · rw [loadImage_unusable]
    refine exists_congr fun k => ?_
    rw [loadImage_slot, (loadedRecipe_kept k).unusable, Bool.not_eq_true']
  · rw [loadImage_chainIgnored]
    refine exists_congr fun k => ?_
    have recipe : d.store.slots[k] = (loadedRecipe bytes k).recipe := loadImage_slot bytes k
    rw [recipe, (loadedRecipe_kept k).ignored, exists_and_left]

end

section
/-! How a command reaches the round sequencer (R70, R77, R90, R92, R93, R126, R153): what its arrival leaves, and what it then asks. -/

namespace Sys2Proof.Machine

/-! ### Arrival -/

/-- What follows an arrival without touching port and link leaves the arrival as it is. -/
theorem Arrived.after {c : Instr} {s v u : State} {but : List Block} (h : Arrived c s v) (k : Untouched but v u)
    (port : .port ∉ but) (link : .link ∉ but) : Arrived c s u := by
  have samePort := k.port port
  have sameLink := k.link link
  unfold Arrived at h ⊢
  split at h <;> exact ⟨h.1.trans samePort, h.2.trans sameLink⟩
theorem Arrived.finish {c : Instr} {s v : State} (h : Arrived c s v) : Arrived c s v.finish :=
  h.after (Untouched.refl [] v).finish (by decide) (by decide)

section
variable {s : State}

/-- A rising edge of a REQ line asks for the line's slot with end index 255 (R70, R126). -/
theorem exec_reqEdge {line : Fin 4} (running : s.loader.phase = .running) (rising : (s.port.req[line]).rising = true) :
    exec (.reqRisingEdge line) s =
      done ((s.onPort fun p => { p with req := modAt p.req line Line.settled }).roundRequest line.val 255) :=
  congrArg done (if_pos (by rw [State.running_of_phase running, rising]; rfl))

/-- A rising edge of CONFIRM (R77, R90, R126). -/
theorem exec_confirmEdge (running : s.loader.phase = .running) (rising : s.port.confirm.rising = true) :
    exec .confirmRisingEdge s = done (s.onPort fun p => { p with confirm := p.confirm.settled }).confirmEdge :=
  congrArg done (if_pos (by rw [State.running_of_phase running, rising]; rfl))

/-- A change of STOP (R93, R126). -/
theorem exec_stopChange (running : s.loader.phase = .running) (timer : s.port.stop.timer.on = true) :
    exec .stopChange s = done (if s.port.stop.level then (s.onPort fun p => { p with stop := p.stop.settled }).stopActive
      else s.onPort fun p => { p with stop := p.stop.settled }) :=
  congrArg done (if_pos (by rw [State.running_of_phase running, timer]; rfl))

theorem exec_request_reaches {f : CommandFrame} (h : s.Reaches f 0) :
    exec (.request f) s = done ((s.onLink Link.heard).roundRequest f.slot.toNat f.endIndex.toNat) :=
  congrArg done (State.receive_reaches h (readCommand_reaches h))
theorem exec_abort_reaches {f : CommandFrame} (h : s.Reaches f 1) :
    exec (.abort f) s = done ((s.onLink Link.heard).cutRound .aborted) :=
  congrArg done (State.receive_reaches h (readCommand_reaches h))
theorem exec_resume_reaches {f : CommandFrame} (h : s.Reaches f 2) :
    exec (.resume f) s = done ((s.onLink Link.heard).resumeRound false) :=
  congrArg done (State.receive_reaches h (readCommand_reaches h))
theorem exec_report_reaches {f : CommandFrame} (h : s.Reaches f 3) :
    exec (.report f) s = done (s.onLink Link.heard).makeStatus :=
  congrArg done (State.receive_reaches h (readCommand_reaches h))

/-- A node that hears a frame is not BARRED. -/
theorem State.Hears.not_barred {kind : Nat} {f : RxFrame} (h : s.Hears kind f) : s.link.state ≠ .barred := by
  rcases h.state with ⟨state, -⟩ | ⟨state, -⟩ <;> rw [state] <;> decide
end

/-! ### A round request -/

/-- A round request has arrived and is about to be judged: port and link moved by its arrival, STOP and the link state not. -/
structure RequestArrives (c : Instr) (s v : State) : Prop where
  frame : Untouched [.port, .link] s v
  arrived : Arrived c s v
  stop : v.port.stop = s.port.stop
  state : v.link.state = s.link.state
  running : v.loader.phase = .running

theorem State.Asks.arrives {c : Instr} {s : State} {slot endIndex : Nat} (h : s.Asks c slot endIndex) :
    ∃ v, exec c s = done (v.roundRequest slot endIndex) ∧ RequestArrives c s v := by
  obtain ⟨line, rfl, running, rising, rfl, rfl⟩ | ⟨f, rfl, reaches, rfl, rfl⟩ := h
  · exact ⟨_, exec_reqEdge running rising, (Untouched.onPort s _).mono (by decide), ⟨rfl, rfl⟩, rfl, rfl, running⟩
  · exact ⟨_, exec_request_reaches reaches, (Untouched.onLink s _).mono (by decide), ⟨rfl, rfl⟩, rfl, rfl, reaches.1.running⟩

/-- The grounds on which a running node refuses a round request (R71). -/
theorem State.refuses_iff {s : State} (running : s.loader.phase = .running) (slot : Nat) : s.refuses slot = true ↔
    3 < slot ∨ (∃ i : Fin 4, i.val = slot ∧ ((s.store.slots[i]).usable = false ∨ s.seq.state ≠ .idle ∧ s.seq.slot = i))
      ∨ s.port.stop.debounced = true ∨ s.link.state = .barred := by
  unfold State.refuses
  by_cases h : slot < 4
  · have named : (∃ i : Fin 4, i.val = slot ∧ ((s.store.slots[i]).usable = false ∨ s.seq.state ≠ .idle ∧ s.seq.slot = i)) ↔
        (s.store.slots[slot]).usable = false ∨ s.seq.state ≠ .idle ∧ s.seq.slot.val = slot := by
      constructor
      · rintro ⟨i, rfl, ground⟩
        exact ground.imp_right fun k => ⟨k.1, congrArg Fin.val k.2⟩
      · exact fun ground => ⟨⟨slot, h⟩, rfl, ground.imp_right fun k => ⟨k.1, Fin.ext k.2⟩⟩
    rw [named, dif_pos h]
    simp [running, show ¬ 3 < slot by omega, or_assoc]
  · simp [h, show 3 < slot by omega]

/-- The pending set once a request has joined it: the larger end index is kept (R70, R72). -/
def Sequencer.joined (q : Sequencer) (i : Fin 4) (endIndex : Nat) : Sequencer :=
  { q with
    pendingSet := modAt q.pendingSet i fun e =>
      match e with
      | none => some (endIndexOf endIndex)
      | some m => some (max m (endIndexOf endIndex)) }

theorem Sequencer.joined_get (q : Sequencer) (i : Fin 4) (endIndex : Nat) (j : Fin 4) : (q.joined i endIndex).pendingSet[j] =
    if j = i then some (max ((q.pendingSet[j]).getD 0) (if endIndex < 20 then endIndex else 255)) else q.pendingSet[j] := by
  unfold Sequencer.joined
  dsimp only
  rw [modAt_get]
  split
  · rename_i same
    subst same
    cases q.pendingSet[j] with
    | none => simp [endIndexOf]
    | some m => rfl
  · rfl

theorem State.roundRequest_refused {v : State} {slot endIndex : Nat} (h : v.refuses slot = true) :
    v.roundRequest slot endIndex = v.sticky .requestRefused := if_pos h
theorem State.roundRequest_joins {v : State} {i : Fin 4} {endIndex : Nat} (h : ¬ v.refuses i.val = true) :
    v.roundRequest i.val endIndex = (v.onSeq fun q => q.joined i endIndex).takePending := by
  have place : Fin.ofNat 4 i.val = i := Fin.ext (Nat.mod_eq_of_lt i.isLt)
  unfold State.roundRequest
  rw [if_neg h, place]
  rfl

/-- Outside IDLE the pending set waits (R73). -/
theorem State.takePending_of_busy {s : State} (h : s.seq.state ≠ .idle) : s.takePending = s := if_neg h

/-! ### The round of the lowest pending slot -/

/-- The lowest slot with a pending request is the next (R73). -/
theorem Sequencer.nextPending_eq {q : Sequencer} {i : Fin 4} {e : Nat} (pending : q.pendingSet[i] = some e)
    (lowest : ∀ j : Fin 4, j < i → q.pendingSet[j] = none) : q.nextPending = some (i, e) := by
  unfold Sequencer.nextPending
  rw [List.findSome?_eq_some_iff]
  refine ⟨allFour.take i.val, i, allFour.drop (i.val + 1), ?_, by rw [pending]; rfl, fun j hj => ?_⟩
  · clear pending lowest
    revert i
    decide
  · have below : j < i := by
      clear pending lowest
      revert j
      revert i
      decide
    rw [lowest j below]
    rfl

/-- The round of a pending slot has begun at step 0 (R73, R76, R99, R166). -/
structure RoundBegun (s t : State) (i : Fin 4) (e : Nat) : Prop where
  frame : Untouched [.updates, .adm, .seq, .ver, .tx, .log] s t
  slot : t.seq.slot = i
  endIndex : t.seq.endIndex = e
  number : t.seq.roundNumber = (s.seq.roundNumber + 1) % 65536
  start : t.seq.startUptime = s.loader.uptime
  suspensions : t.seq.suspendCount = 0 ∧ t.seq.lastCause = none
  pending : ∀ j : Fin 4, t.seq.pendingSet[j] = if j = i then none else s.seq.pendingSet[j]
  fresh : FreshAttempt s t 0 (s.store.slots[i]).steps[(0 : Fin 20)]
  entered : Entered t (s.store.slots[i]).steps[(0 : Fin 20)] (s.store.slots[i]).baseUrgency false
  volumes : t.ver.returned = 0 ∧ t.ver.recovered = 0 ∧ t.ver.drained = 0
  comp : ∃ x, t.log.comp = some x ∧ x.complete = false ∧ x.record.roundNumber = t.seq.roundNumber ∧ x.record.slot = i
    ∧ x.record.endIndex = e ∧ x.record.results = []
  queue : t.log.queue = s.log.queue
  ops : s.updates.ops <+: t.updates.ops

theorem State.takePending_begins {s : State} {i : Fin 4} {e : Nat} (idle : s.seq.state = .idle)
    (pending : s.seq.pendingSet[i] = some e) (lowest : ∀ j : Fin 4, j < i → s.seq.pendingSet[j] = none) :
    RoundBegun s s.takePending i e := by
  unfold State.takePending
  rw [if_pos idle, Sequencer.nextPending_eq pending lowest]
  dsimp only
  obtain ⟨x, hx⟩ : ∃ x, x = s.onSeq fun q =>
      { q with
        pendingSet := modAt q.pendingSet i fun _ => none, slot := i, endIndex := e
        roundNumber := (q.roundNumber + 1) % 65536, startUptime := s.loader.uptime
        suspendCount := 0, lastCause := none } := ⟨_, rfl⟩
  rw [← hx]
  have begun : Untouched [.updates, .adm, .seq, .ver, .tx, .log] s (x.beginRecord.onVer Verifier.roundStart) := by
    rw [hx]
    exact ((Untouched.onSeq s _).mono (by decide)).trans
      (((Untouched.onLog _ _).mono (by decide)).trans ((Untouched.onVer _ _).mono (by decide)))
  obtain ⟨fresh, entered, frame, -, ops, records, -, seq, volumes⟩ :=
    (x.beginRecord.onVer Verifier.roundStart).enterStep_spec 0 false
  generalize (x.beginRecord.onVer Verifier.roundStart).enterStep 0 false = t at *
  subst hx
  have comp := records.comp
  exact ⟨begun.trans frame, by rw [seq]; rfl, by rw [seq]; rfl, by rw [seq]; rfl, by rw [seq]; rfl, by rw [seq]; exact ⟨rfl, rfl⟩,
    fun j => by rw [seq]; exact modAt_get _ i j _, fresh.congr rfl rfl, entered, volumes,
    ⟨_, comp, rfl, by rw [seq]; rfl, rfl, rfl, rfl⟩, records.queue, ops⟩

theorem RoundBegun.finish {s t : State} {i : Fin 4} {e : Nat} (h : RoundBegun s t i e) : RoundBegun s t.finish i e := by
  have seq := State.finish_seq t
  have ver := State.finish_ver t
  have log := State.finish_log t
  exact ⟨h.frame.finish, seq ▸ h.slot, seq ▸ h.endIndex, seq ▸ h.number, seq ▸ h.start, seq ▸ h.suspensions, seq ▸ h.pending,
    h.fresh.finish, h.entered.finish, ver ▸ h.volumes, seq ▸ log ▸ h.comp, log ▸ h.queue, State.finish_updates t ▸ h.ops⟩

end Sys2Proof.Machine

open Sys2Proof Sys2Proof.Machine

/-- Settles O32: the command arrives, and its request is judged on the grounds of R71, which the arrival leaves as they were. -/
theorem requestRefusedOrPending : Obligations.RequestRefusedOrPending := by
  intro c s slot endIndex asks
  obtain ⟨v, run, arrives⟩ := asks.arrives
  have grounds := State.refuses_iff arrives.running slot
  rw [arrives.frame.store (by decide), arrives.frame.seq (by decide), arrives.stop, arrives.state] at grounds
  refine ⟨fun refused => ?_, fun i place usable busy other noStop noBar => ?_⟩
  · rw [State.roundRequest_refused (grounds.2 refused)] at run
    have flagged := Untouched.sticky v .requestRefused
    refine ⟨_, run, (arrives.frame.mono (by decide)).trans (flagged.mono (by decide)).finish,
      arrives.arrived.after flagged.finish (by decide) (by decide), ?_⟩
    rw [State.finish_log, ← arrives.frame.log (by decide)]
    rfl
  · subst place
    have accepted : ¬ v.refuses i.val = true := by
      rw [grounds]
      rintro (above | ⟨j, place, ground⟩ | stop | bar)
      · exact absurd i.isLt (by omega)
      · rw [Fin.ext place, usable] at ground
        exact ground.elim nofun fun k => other k.2
      · exact absurd (noStop.symm.trans stop) nofun
      · exact noBar bar
    have seq : v.seq = s.seq := arrives.frame.seq (by decide)
    rw [State.roundRequest_joins accepted, State.takePending_of_busy (by rw [State.onSeq_seq, seq]; exact busy)] at run
    have joined := Untouched.onSeq v fun q => q.joined i endIndex
    refine ⟨_, run, (arrives.frame.mono (by decide)).trans (joined.mono (by decide)).finish,
      arrives.arrived.after joined.finish (by decide) (by decide), ?_, fun j => ?_⟩
    · rw [State.finish_seq, State.onSeq_seq, seq]
      rfl
    · rw [State.finish_seq, State.onSeq_seq, seq]
      exact s.seq.joined_get i endIndex j

/-- Settles O33: in IDLE the request joins the pending set, of which the lowest slot's is taken at once. -/
theorem requestBeginsRound : Obligations.RequestBeginsRound := by
  rintro c s slot endIndex p i st asks rfl usable noStop noBar idle among lowest rfl
  obtain ⟨v, run, arrives⟩ := asks.arrives
  have seq : v.seq = s.seq := arrives.frame.seq (by decide)
  have store : v.store = s.store := arrives.frame.store (by decide)
  have accepted : ¬ v.refuses p.val = true := by
    rw [State.refuses_iff arrives.running, store, seq, arrives.stop, arrives.state]
    rintro (above | ⟨j, place, ground⟩ | stop | bar)
    · exact absurd p.isLt (by omega)
    · rw [Fin.ext place, usable] at ground
      exact ground.elim nofun fun k => k.1 idle
    · exact absurd (noStop.symm.trans stop) nofun
    · exact noBar bar
  obtain ⟨w, hw⟩ : ∃ w, w = v.onSeq fun q => q.joined p endIndex := ⟨_, rfl⟩
  rw [State.roundRequest_joins accepted, ← hw] at run
  have joined (j : Fin 4) : w.seq.pendingSet[j] = if j = p then
      some (max ((s.seq.pendingSet[j]).getD 0) (if endIndex < 20 then endIndex else 255)) else s.seq.pendingSet[j] := by
    rw [hw, ← seq]
    exact v.seq.joined_get p endIndex j
  have upTo : Untouched [.port, .link, .seq] s w := by
    rw [hw]
    exact (arrives.frame.mono (by decide)).trans ((Untouched.onSeq v _).mono (by decide))
  have before : Untouched roundReach s w := upTo.mono (by decide)
  have pending : w.seq.pendingSet[i] =
      some (max ((s.seq.pendingSet[i]).getD 0) (if i ≠ p then 0 else if endIndex < 20 then endIndex else 255)) := by
    rw [joined]
    by_cases own : i = p
    · rw [if_pos own, if_neg (not_not_intro own)]
    · obtain ⟨e, he⟩ := Option.ne_none_iff_exists'.1 (among.resolve_left own)
      rw [if_neg own, if_pos own, he]
      simp
  have begun := (State.takePending_begins (by rw [hw, State.onSeq_seq, seq]; exact idle) pending fun j below => by
    rw [joined, if_neg (lowest j below).1, (lowest j below).2]).finish
  have seqW : w.seq = s.seq.joined p endIndex := by rw [hw, ← seq]; rfl
  have fresh := begun.fresh.congr (s := s) (by rw [seqW]; rfl) (before.settings (by decide))
  rw [before.store (by decide)] at fresh
  have entered := begun.entered
  rw [before.store (by decide)] at entered
  have number := begun.number
  rw [seqW] at number
  obtain ⟨x, comp, unfinished, xNumber, xSlot, xEnd, results⟩ := begun.comp
  have arrivedW : Arrived c s w := by
    rw [hw]
    exact arrives.arrived.after (Untouched.onSeq v _) (by decide) (by decide)
  refine ⟨_, run, before.trans (begun.frame.mono (by decide)), arrivedW.after begun.frame (by decide) (by decide), begun.slot,
    begun.endIndex, number, begun.start.trans (by rw [before.loader (by decide)]), begun.suspensions.1, begun.suspensions.2,
    fun j => ?_, fresh, entered, begun.volumes.1, begun.volumes.2.1, begun.volumes.2.2,
    ⟨x, comp, unfinished, xNumber, xSlot, xEnd.trans begun.endIndex.symm, results⟩,
    begun.queue.trans (by rw [upTo.log (by decide)]), ?_⟩
  · rw [begun.pending, joined]
  · have ops := begun.ops
    rwa [upTo.updates (by decide)] at ops

end

section
/-! CONFIRM, RESUME, REPORT and the timers of a step (R77, R81 to R83, R88 to R90, R172). -/

namespace Sys2Proof.Machine

section
variable {v : State}

/-- CONFIRM at a HOLD step lets its attempt go on (R77). -/
theorem State.confirmEdge_held (held : v.seq.state = .holdWait) : v.confirmEdge = v.proceed := by
  unfold State.confirmEdge
  rw [held]
/-- CONFIRM resumes a suspended round (R90). -/
theorem State.confirmEdge_suspended (suspended : v.seq.state = .suspended) : v.confirmEdge = v.resumeRound true := by
  unfold State.confirmEdge
  rw [suspended]
/-- Elsewhere, and at a BARRED node's suspended round, CONFIRM is ignored (R77, R90). -/
theorem State.confirmEdge_ignored (held : v.seq.state ≠ .holdWait) (barred : v.seq.state ≠ .suspended ∨ v.link.state = .barred) :
    v.confirmEdge = v := by
  unfold State.confirmEdge
  split
  · rename_i h
    exact absurd h held
  · rename_i h
    exact if_neg fun k => barred.elim (absurd h) k.2
  · rfl

/-- A round that goes on keeps the place of its attempt (R77). -/
theorem Proceeded.place {s t : State} (p : Proceeded s t) : t.seq.tag = s.seq.tag ∧ t.seq.pointer = s.seq.pointer := by
  by_cases claims : s.curStep.pairs = []
  · rw [(p.claimless claims).1]
    exact ⟨rfl, rfl⟩
  · rw [(p.claims claims).1]
    exact ⟨rfl, rfl⟩

/-- What resuming leaves, judged from before the command's arrival (R90). -/
theorem State.resumed {s v : State} {but : List Block} (frame : Untouched but s v) (seq : .seq ∉ but) (store : .store ∉ but)
    (settings : .settings ∉ but) (suspended : s.seq.state = .suspended) (free : v.link.state ≠ .barred) (confirmed : Bool) :
    (v.resumeRound confirmed).finish.seq.suspendTimer = .stopped
    ∧ FreshAttempt s (v.resumeRound confirmed).finish s.seq.pointer s.curStep
    ∧ Entered (v.resumeRound confirmed).finish s.curStep s.baseUrgency confirmed := by
  have same := frame.seq seq
  obtain ⟨-, timer, fresh, entered⟩ := State.resumeRound_spec (same ▸ suspended) free confirmed
  have step : v.curStep = s.curStep := State.curStep_congr (frame.store store) (by rw [same]) (by rw [same])
  have base : v.baseUrgency = s.baseUrgency := State.baseUrgency_congr (frame.store store) (by rw [same])
  rw [step] at fresh entered
  rw [base] at entered
  rw [same] at fresh
  exact ⟨by rw [State.finish_seq]; exact timer, (fresh.congr (by rw [same]) (frame.settings settings)).finish, entered.finish⟩
end

/-- A STATUS made now: the bytes of the state and the suspend time in the status slot, its mark set where a copy of an earlier one
is on the medium (R89, R156, R172). -/
theorem State.makeStatus_tx (s : State) :
    SameTx { s.tx with status := some (statusBytes s), statusSuspend := some s.seq.suspendTimer.ms } s.makeStatus.tx
    ∧ (s.tx.copyFrom = some .status → s.makeStatus.tx.marks.status = true) := by
  show SameTx _ { s.tx.replaced .status with status := _, statusSuspend := _ } ∧
    (_ → (s.tx.replaced .status).marks.status = true)
  unfold Selector.replaced
  split
  · exact ⟨rfl, fun _ => rfl⟩
  · rename_i other
    exact ⟨rfl, fun copy => absurd copy other⟩

end Sys2Proof.Machine

open Sys2Proof Sys2Proof.Machine

/-- Settles O34: the command arrives, and by the round's state the attempt goes on, the round is resumed, or nothing happens. -/
theorem confirmAndResume : Obligations.ConfirmAndResume := by
  refine ⟨fun s running rising => ?_, fun f s reaches => ?_⟩
  · obtain ⟨v, hv⟩ : ∃ v, v = s.onPort fun p => { p with confirm := p.confirm.settled } := ⟨_, rfl⟩
    have run : exec .confirmRisingEdge s = done v.confirmEdge := hv ▸ exec_confirmEdge running rising
    have frame : Untouched [.port] s v := hv ▸ Untouched.onPort s _
    have arrived : Arrived .confirmRisingEdge s v := by rw [hv]; exact ⟨rfl, rfl⟩
    have seq : v.seq = s.seq := frame.seq (by decide)
    have link : v.link = s.link := by rw [hv]; rfl
    refine ⟨fun held stopped standby => ?_, fun suspended free => ?_, fun held barred => ?_⟩
    · have p := v.proceed_spec
      have entered := p.entered (by rw [seq]; exact stopped) (by rw [frame.ver (by decide)]; exact standby)
      rw [State.confirmEdge_held (seq ▸ held)] at run
      have step : v.curStep = s.curStep := State.curStep_congr (frame.store (by decide)) (by rw [seq]) (by rw [seq])
      have base : v.baseUrgency = s.baseUrgency := State.baseUrgency_congr (frame.store (by decide)) (by rw [seq])
      rw [step, base] at entered
      refine ⟨_, run, (frame.mono (by decide)).trans (p.frame.finish.mono (by decide)),
        arrived.after p.frame.finish (by decide) (by decide), ?_, ?_, entered.finish⟩
      · rw [State.finish_seq, p.place.1, seq]
      · rw [State.finish_seq, p.place.2, seq]
    · have moved := ((Placing.refl v).resumeRound true).untouched.finish
      rw [State.confirmEdge_suspended (seq ▸ suspended)] at run
      exact ⟨_, run, (frame.mono (by decide)).trans (moved.mono (by decide)), arrived.after moved (by decide) (by decide),
        State.resumed frame (by decide) (by decide) (by decide) suspended (link ▸ free) true⟩
    · rw [State.confirmEdge_ignored (seq ▸ held) (by rw [seq, link]; exact barred)] at run
      exact ⟨_, run, frame.finish, arrived.finish⟩
  · have run := exec_resume_reaches reaches
    have frame := Untouched.onLink s Link.heard
    have arrived : Arrived (.resume f) s (s.onLink Link.heard) := ⟨rfl, rfl⟩
    refine ⟨fun suspended => ?_, fun active => ?_⟩
    · have moved := ((Placing.refl (s.onLink Link.heard)).resumeRound false).untouched.finish
      exact ⟨_, run, (frame.mono (by decide)).trans (moved.mono (by decide)), arrived.after moved (by decide) (by decide),
        State.resumed frame (by decide) (by decide) (by decide) suspended reaches.1.not_barred false⟩
    · have ignored : (s.onLink Link.heard).resumeRound false = s.onLink Link.heard := if_neg fun k => active k.1
      rw [ignored] at run
      exact ⟨_, run, frame.finish, arrived.finish⟩

/-- Settles O40: the step timer at its limit suspends the round as the operation of R88 does; a pause that is over is a burst. -/
theorem stepAndPauseTimers : Obligations.StepAndPauseTimers := by
  refine ⟨fun s early => ?_, fun s on limit running opened => ?_, fun s on running pause => ?_⟩
  · have still : exec .stepTimerExpiry s = done s := by
      refine congrArg done (if_neg fun due => ?_)
      have reached : s.curStep.limit * 1000 ≤ s.seq.stepTimer.ms := of_decide_eq_true (Bool.and_eq_true_iff.1 due.1).2
      omega
    exact ⟨_, still, (Untouched.refl [] s).finish⟩
  · have due : s.seq.stepTimer.due (s.curStep.limit * 1000) = true := by
      unfold Timer.due
      rw [on, decide_eq_true limit]
      rfl
    have run : exec .stepTimerExpiry s = done (s.suspend .stepTime) := congrArg done (if_pos ⟨due, running⟩)
    obtain ⟨frame, suspended, ver, comp⟩ := s.suspend_spec .stepTime opened
    exact ⟨_, run, frame.finish.mono (by decide), frame.finish.port (by decide), suspended.finish,
      (State.finish_ver _).trans ver, by rw [State.finish_log]; exact comp⟩
  · have run : exec .pauseTimerExpiry s =
        done ((s.onSeq fun q => { q with phase := .burst, pauseTimer := .stopped }).onVer Verifier.pauseEnds) :=
      congrArg done (if_pos ⟨on, running, pause⟩)
    have frame : Untouched [.seq, .ver] s
        ((s.onSeq fun q => { q with phase := .burst, pauseTimer := .stopped }).onVer Verifier.pauseEnds) :=
      ((Untouched.onSeq s _).mono (by decide)).trans ((Untouched.onVer _ _).mono (by decide))
    exact ⟨_, run, frame.finish, State.finish_seq _, State.finish_ver _⟩

/-- Settles O42: each command makes a STATUS of the state it finds, REPORT that of the state in which the link has heard it. -/
theorem reportAndPeriodMakeStatus : Obligations.ReportAndPeriodMakeStatus := by
  refine ⟨fun f s reaches => ?_, fun s running => ?_⟩
  · obtain ⟨v, hv⟩ : ∃ v, v = s.onLink Link.heard := ⟨_, rfl⟩
    have run : exec (.report f) s = done v.makeStatus := hv ▸ exec_report_reaches reaches
    have busy : v.makeStatus.link.medium = .busy := hv ▸ heard_busy reaches.1
    have frame : Untouched [.link, .tx, .log] s v.makeStatus :=
      ((hv ▸ Untouched.onLink s Link.heard : Untouched [.link] s v).mono (by decide)).trans ((Untouched.makeStatus v).mono (by decide))
    obtain ⟨made, marked⟩ := v.makeStatus_tx
    rw [← State.finish_tx_busy _ busy] at made marked
    subst hv
    exact ⟨_, run, frame.finish, State.finish_link_busy _ busy, made, marked, State.finish_log _⟩
  · obtain ⟨v, hv⟩ : ∃ v, v = s.onLog fun l => { l with period := .from s.settings.statusMs } := ⟨_, rfl⟩
    have run : exec .statusPeriodExpiry s = done v.makeStatus := hv ▸ congrArg done (if_pos (State.running_of_phase running))
    have frame : Untouched [.tx, .log] s v.makeStatus :=
      ((hv ▸ Untouched.onLog s _ : Untouched [.log] s v).mono (by decide)).trans ((Untouched.makeStatus v).mono (by decide))
    obtain ⟨made, marked⟩ := v.makeStatus_tx
    refine ⟨_, run, frame.finish, ?_, fun copy => ?_, by subst hv; exact State.finish_log _⟩
    · subst hv
      exact made.trans (State.finish_sameTx _)
    · have copied : v.makeStatus.tx.copyFrom ≠ none := by
        rw [((Steady.refl v).makeStatus).copy, hv]
        exact fun none => by rw [State.onLog_tx, copy] at none; cases none
      rw [State.finish_tx_copied copied]
      exact marked (by rw [hv]; exact copy)

end

section
/-! The early end of a round (R91 to R95, R98, R126, R166 to R168): ABORT, STOP and the suspend limit, the record they complete, and
the pending request taken once it has joined the queue. -/

namespace Sys2Proof.Machine

/-! ### The end arrives -/

/-- What has arrived when a round is about to end early: port and link moved, and at STOP the pending set emptied and its requests
refused (R93). -/
structure EndArrives (c : Instr) (s v : State) : Prop where
  frame : Untouched [.port, .link, .seq, .log] s v
  arrived : Arrived c s v
  seq : v.seq = { s.seq with pendingSet := v.seq.pendingSet }
  pending : ∀ j : Fin 4, v.seq.pendingSet[j] = if c = .stopChange then none else s.seq.pendingSet[j]
  records : SameRecords s.log v.log

/-- STOP has become active and the pending set is empty; the round has not yet ended (R93). -/
def State.stopping (s : State) : State :=
  ((s.onPort fun p => { p with stop := p.stop.settled }).onSeq fun q => { q with pendingSet := Vector.replicate 4 none }).stickyIf
    (allFour.any fun i => (s.seq.pendingSet[i]).isSome) .requestRefused

section
variable {s : State}

theorem exec_stop_active (running : s.loader.phase = .running) (timer : s.port.stop.timer.on = true) (level : s.port.stop.level = true) :
    exec .stopChange s = done (s.stopping.cutRound .stopped) := by
  rw [exec_stopChange running timer, if_pos level]
  rfl
theorem exec_stop_inactive (running : s.loader.phase = .running) (timer : s.port.stop.timer.on = true) (level : s.port.stop.level = false) :
    exec .stopChange s = done (s.onPort fun p => { p with stop := p.stop.settled }) := by
  rw [exec_stopChange running timer, level]
  rfl

theorem State.stopping_frame (s : State) : Untouched [.port, .seq, .log] s s.stopping :=
  ((Untouched.onPort s _).mono (by decide)).trans (((Untouched.onSeq _ _).mono (by decide)).trans
    ((Untouched.stickyIf _ _ _).mono (by decide)))
theorem State.stopping_seq (s : State) : s.stopping.seq = { s.seq with pendingSet := Vector.replicate 4 none } :=
  (Untouched.stickyIf _ _ _).seq (by decide)
theorem State.stopping_arrived (s : State) : Arrived .stopChange s s.stopping := by
  have arrived : Arrived .stopChange s (s.onPort fun p => { p with stop := p.stop.settled }) := ⟨rfl, rfl⟩
  exact (arrived.after (Untouched.onSeq _ _) (by decide) (by decide)).after (Untouched.stickyIf _ _ _) (by decide) (by decide)

theorem State.EndsRound.arrives {c : Instr} {o : RoundOutcome} (h : s.EndsRound c o) (fits : s.RoundFits) :
    ∃ v, exec c s = done ((v.endAttempt .cut).closeRound o) ∧ EndArrives c s v := by
  obtain ⟨f, rfl, reaches, active, rfl⟩ | ⟨rfl, running, timer, level, active, rfl⟩ | ⟨rfl, timer, suspended, rfl⟩ := h
  · have cut : (s.onLink Link.heard).cutRound .aborted = ((s.onLink Link.heard).endAttempt .cut).closeRound .aborted := if_pos active
    exact ⟨_, (exec_abort_reaches reaches).trans (congrArg done cut), (Untouched.onLink s _).mono (by decide), ⟨rfl, rfl⟩, rfl,
      fun j => rfl, .refl _⟩
  · have cut : s.stopping.cutRound .stopped = (s.stopping.endAttempt .cut).closeRound .stopped :=
      if_pos (by rw [State.stopping_seq]; exact active)
    refine ⟨_, (exec_stop_active running timer level).trans (congrArg done cut), s.stopping_frame.mono (by decide),
      s.stopping_arrived, by rw [State.stopping_seq], fun j => ?_,
      State.stickyIf_records (State.onSeq (s.onPort _) _) _ _⟩
    rw [State.stopping_seq, if_pos rfl]
    exact Vector.getElem_replicate _
  · have ended : s.endAttempt .cut = s := if_neg (by rw [fits.attempt, suspended]; decide)
    have due : exec .suspendTimerExpiry s = done (s.closeRound .abandoned) := congrArg done (if_pos ⟨timer, suspended⟩)
    exact ⟨s, by rw [ended]; exact due, .refl _ s, ⟨rfl, rfl⟩, rfl, fun j => rfl, .refl _⟩
end

/-! ### The record completed -/

/-- A record with the header that the end of its round fills in (R94, R166). -/
def Record.headed (s : State) (o : RoundOutcome) (r : Record) : Record :=
  { r with
    outcome := o, lastCause := s.seq.lastCause, suspendCount := s.seq.suspendCount, startUptime := s.seq.startUptime
    endUptime := s.loader.uptime, recovered := litres s.ver.recovered, drained := litres s.ver.drained }

/-- The round is CLOSING and its record complete; it is not yet offered to the queue (R94). -/
def State.closed (s : State) (o : RoundOutcome) : State :=
  (((s.releaseIfClaims.onSeq fun q =>
      { q with stepTimer := .stopped, pauseTimer := .stopped, suspendTimer := .stopped }).onVer Verifier.roundEnded).completeRecord
    o).setRound .closing

theorem State.closeRound_eq (s : State) (o : RoundOutcome) : s.closeRound o = (s.closed o).takeRecord.recordTaken := rfl

/-- What CLOSING leaves before the record is offered to the queue (R94, R98, R166). -/
structure Closing (s t : State) (r : Record) : Prop where
  frame : Untouched [.updates, .adm, .seq, .ver, .tx, .log] s t
  seq : t.seq = { s.seq with state := .closing, stepTimer := .stopped, pauseTimer := .stopped, suspendTimer := .stopped }
  ver : t.ver = { s.ver with mode := .off }
  comp : t.log.comp = some ⟨r, true⟩
  queue : t.log.queue = s.log.queue
  dropped : t.log.dropped = s.log.dropped
  released : s.curStep.pairs ≠ [] → t.adm.standing = none ∧ (s.adm.standing ≠ none → t.adm.own = .none)

theorem State.closed_spec {s : State} {x : Composition} (o : RoundOutcome) (comp : s.log.comp = some x) :
    Closing s (s.closed o) (x.record.headed s o) := by
  obtain ⟨frame, log, released, -⟩ := s.releaseIfClaims_spec
  unfold State.closed
  generalize s.releaseIfClaims = a at *
  obtain ⟨b, hb⟩ : ∃ b, b = ((a.onSeq fun q =>
      { q with stepTimer := .stopped, pauseTimer := .stopped, suspendTimer := .stopped }).onVer Verifier.roundEnded).completeRecord o :=
    ⟨_, rfl⟩
  rw [← hb]
  have moved : Untouched [.seq, .ver, .log] a b := by
    rw [hb]
    exact ((Untouched.onSeq a _).mono (by decide)).trans (((Untouched.onVer _ _).mono (by decide)).trans
      ((Untouched.onLog _ _).mono (by decide)))
  have record : b.log.comp = some ⟨x.record.headed s o, true⟩ := by
    have header : b.log.comp = a.log.comp.map fun c => ⟨c.record.headed a o, true⟩ := by rw [hb]; rfl
    have same : x.record.headed a o = x.record.headed s o := by
      unfold Record.headed
      rw [frame.seq (by decide), frame.ver (by decide), frame.loader (by decide)]
    rw [header, log.records.comp, comp, ← same]
    rfl
  have records := b.setRound_records .closing
  refine ⟨(frame.mono (by decide)).trans ((moved.mono (by decide)).trans ((Untouched.setRound b _).mono (by decide))), ?_, ?_,
    records.comp.trans record, ?_, ?_, ?_⟩
  · rw [State.setRound_seq, hb, ← frame.seq (by decide)]
    rfl
  · rw [State.setRound_ver, hb, ← frame.ver (by decide)]
    rfl
  · rw [records.queue, hb]
    exact log.records.queue
  · rw [records.dropped, hb]
    exact log.records.dropped
  · rw [State.setRound_adm, moved.adm (by decide)]
    exact released

/-! ### The queue -/

/-- The queue has room for a complete record, or its head gives way (R167, R168). -/
abbrev State.TakesRecord (s : State) : Prop := s.log.queue.length < 6 ∨ s.settings.policy = .dropOldest

/-- A complete record has joined the tail of the queue (R167, R168). -/
structure Joined (s t : State) (r : Record) : Prop where
  frame : Untouched [.tx, .log] s t
  comp : t.log.comp = none
  queue : t.log.queue = (if s.log.queue.length < 6 then s.log.queue else s.log.queue.tail) ++ [r]
  dropped : t.log.dropped = if s.log.queue.length < 6 then s.log.dropped else min (s.log.dropped + 1) 255

section
variable {s : State} {r : Record} (comp : s.log.comp = some ⟨r, true⟩)
include comp

theorem State.takeRecord_joins (takes : s.TakesRecord) : Joined s s.takeRecord r := by
  by_cases room : s.log.queue.length < 6
  · rw [State.takeRecord_of_room comp room]
    exact ⟨(Untouched.onLog s _).mono (by decide), rfl, by rw [if_pos room]; rfl, by rw [if_pos room]; rfl⟩
  · have waits : s.log.waitingRecord = some r := by unfold Log.waitingRecord; rw [comp]; rfl
    have drops : s.takeRecord = ((s.onTx fun t => t.replaced .stream).onLog fun l =>
        ({ l.dropHead with dropped := min (l.dropped + 1) 255 }).append r).sticky .recordDropped := by
      unfold State.takeRecord
      rw [waits, takes.resolve_left room]
      exact if_neg room
    rw [drops]
    exact ⟨((Untouched.onTx s _).mono (by decide)).trans (((Untouched.onLog _ _).mono (by decide)).trans
      ((Untouched.sticky _ _).mono (by decide))), rfl, by rw [if_neg room]; rfl, by rw [if_neg room]; rfl⟩

theorem State.takeRecord_waits (full : ¬ s.TakesRecord) : s.takeRecord = s := by
  have waits : s.log.waitingRecord = some r := by unfold Log.waitingRecord; rw [comp]; rfl
  have ⟨full, policy⟩ := not_or.1 full
  unfold State.takeRecord
  rw [waits]
  refine (if_neg full).trans ?_
  cases held : s.settings.policy with
  | dropOldest => exact absurd held policy
  | holdRounds => rfl
end

/-! ### A round ended early -/

/-- The record of a round ended early: an open attempt's result, CUT, in it while there is room, and its header (R92, R93, R166). -/
def State.cutRecord (s : State) (o : RoundOutcome) (r : Record) : Record :=
  (if s.seq.attemptOpen then r.addResult (s.ver.result s.seq.pointer .cut) else r).headed s o

theorem State.cutRecord_results (s : State) (o : RoundOutcome) (r : Record) : (s.cutRecord o r).results =
    if s.seq.attemptOpen = true ∧ r.results.length < 32 then r.results ++ [s.ver.result s.seq.pointer .cut] else r.results := by
  unfold State.cutRecord Record.headed Record.addResult Config.resultsMax
  by_cases opened : s.seq.attemptOpen = true <;> by_cases room : r.results.length < 32 <;> simp [opened, room]
theorem State.cutRecord_kept (s : State) (o : RoundOutcome) (r : Record) : (s.cutRecord o r).roundNumber = r.roundNumber
    ∧ (s.cutRecord o r).slot = r.slot ∧ (s.cutRecord o r).endIndex = r.endIndex := by
  unfold State.cutRecord Record.headed Record.addResult
  split
  · split <;> exact ⟨rfl, rfl, rfl⟩
  · exact ⟨rfl, rfl, rfl⟩

/-- A round ended early is CLOSING with its record complete; what follows is up to the queue (R92 to R94). -/
structure RoundCloses (c : Instr) (s t : State) (r : Record) : Prop where
  frame : Untouched roundReach s t
  arrived : Arrived c s t
  seq : t.seq = { s.seq with
    state := .closing, attemptOpen := false, stepTimer := .stopped, pauseTimer := .stopped, suspendTimer := .stopped
    pendingSet := t.seq.pendingSet }
  pending : ∀ j : Fin 4, t.seq.pendingSet[j] = if c = .stopChange then none else s.seq.pendingSet[j]
  ver : t.ver = { s.ver with mode := .off }
  comp : t.log.comp = some ⟨r, true⟩
  queue : t.log.queue = s.log.queue
  dropped : t.log.dropped = s.log.dropped
  released : s.curStep.pairs ≠ [] → t.adm.standing = none ∧ (s.adm.standing ≠ none → t.adm.own = .none)

section
variable {c : Instr} {o : RoundOutcome} {s v k : State} {x : Composition} {r : Record}

theorem EndArrives.closes (h : EndArrives c s v) (comp : s.log.comp = some x) :
    RoundCloses c s ((v.endAttempt .cut).closed o) (s.cutRecord o x.record) := by
  obtain ⟨ended, seq, ver, log⟩ := v.endAttempt_spec .cut
  generalize v.endAttempt .cut = w at *
  rw [h.seq] at seq ver log
  rw [h.frame.ver (by decide)] at ver log
  have place : w.seq.slot = s.seq.slot ∧ w.seq.pointer = s.seq.pointer := by rw [seq]; exact ⟨rfl, rfl⟩
  have step : w.curStep = s.curStep :=
    State.curStep_congr ((ended.store (by decide)).trans (h.frame.store (by decide))) place.1 place.2
  have adm : w.adm = s.adm := (ended.adm (by decide)).trans (h.frame.adm (by decide))
  have record : w.log.comp = some
      { x with record := if s.seq.attemptOpen then x.record.addResult (s.ver.result s.seq.pointer .cut) else x.record } := by
    rw [log]
    split
    · exact (congrArg (Option.map _) (h.records.comp.trans comp))
    · exact h.records.comp.trans comp
  have kept : w.log.queue = v.log.queue ∧ w.log.dropped = v.log.dropped := by rw [log]; split <;> exact ⟨rfl, rfl⟩
  have off : w.ver.recovered = s.ver.recovered ∧ w.ver.drained = s.ver.drained
      ∧ { w.ver with mode := .off } = { s.ver with mode := .off } := by
    rw [ver]
    split <;> exact ⟨rfl, rfl, rfl⟩
  have closing := State.closed_spec o record
  have header : ∀ y : Record, y.headed w o = y.headed s o := fun y => by
    unfold Record.headed
    rw [off.1, off.2.1, seq, ended.loader (by decide), h.frame.loader (by decide)]
  rw [header] at closing
  generalize w.closed o = t at *
  have before : Untouched roundReach s w := (h.frame.mono (by decide)).trans (ended.mono (by decide))
  have pending : t.seq.pendingSet = v.seq.pendingSet := by rw [closing.seq, seq]
  refine ⟨before.trans (closing.frame.mono (by decide)),
    (h.arrived.after ended (by decide) (by decide)).after closing.frame (by decide) (by decide), ?_, fun j => ?_,
    closing.ver.trans off.2.2, closing.comp, closing.queue.trans (kept.1.trans h.records.queue),
    closing.dropped.trans (kept.2.trans h.records.dropped), ?_⟩
  · rw [closing.seq, seq]
  · rw [pending]
    exact h.pending j
  · rw [← step, ← adm]
    exact closing.released

/-- The command that ends a round brings it to CLOSING; from there the queue decides. -/
theorem State.EndsRound.closes (h : s.EndsRound c o) (fits : s.RoundFits) (comp : s.log.comp = some x) :
    ∃ k, exec c s = done k.takeRecord.recordTaken ∧ RoundCloses c s k (s.cutRecord o x.record) := by
  obtain ⟨v, run, arrives⟩ := h.arrives fits
  rw [State.closeRound_eq] at run
  exact ⟨_, run, arrives.closes comp⟩

theorem RoundCloses.finish (h : RoundCloses c s k r) : RoundCloses c s k.finish r where
  frame := h.frame.finish
  arrived := h.arrived.finish
  seq := by rw [State.finish_seq]; exact h.seq
  pending j := by rw [State.finish_seq]; exact h.pending j
  ver := by rw [State.finish_ver]; exact h.ver
  comp := by rw [State.finish_log]; exact h.comp
  queue := by rw [State.finish_log]; exact h.queue
  dropped := by rw [State.finish_log]; exact h.dropped
  released := by rw [State.finish_adm]; exact h.released

/-- The record of a round that has ended is in the queue, and the sequencer in IDLE (R95). -/
def State.roundOver (s : State) : State := s.takeRecord.setRound .idle

/-- Where the record waits for room, the round stays CLOSING (R168). -/
theorem RoundCloses.waits (h : RoundCloses c s k r) (full : ¬ s.TakesRecord) : k.takeRecord.recordTaken = k := by
  have same : ¬ k.TakesRecord := by
    unfold State.TakesRecord
    rw [h.queue, h.frame.settings (by decide)]
    exact full
  rw [State.takeRecord_waits h.comp same]
  exact State.recordTaken_of_comp (by rw [h.comp]; exact nofun)

/-- Where it is taken, the sequencer is in IDLE and takes what is pending (R95). -/
structure RoundOver (c : Instr) (s t : State) (r : Record) : Prop where
  frame : Untouched roundReach s t
  arrived : Arrived c s t
  seq : t.seq = { s.seq with
    state := .idle, attemptOpen := false, stepTimer := .stopped, pauseTimer := .stopped, suspendTimer := .stopped
    pendingSet := t.seq.pendingSet }
  pending : ∀ j : Fin 4, t.seq.pendingSet[j] = if c = .stopChange then none else s.seq.pendingSet[j]
  ver : t.ver = { s.ver with mode := .off }
  comp : t.log.comp = none
  queue : t.log.queue = (if s.log.queue.length < 6 then s.log.queue else s.log.queue.tail) ++ [r]
  dropped : t.log.dropped = if s.log.queue.length < 6 then s.log.dropped else min (s.log.dropped + 1) 255
  released : s.curStep.pairs ≠ [] → t.adm.standing = none ∧ (s.adm.standing ≠ none → t.adm.own = .none)

theorem RoundOver.finish {t : State} (h : RoundOver c s t r) : RoundOver c s t.finish r where
  frame := h.frame.finish
  arrived := h.arrived.finish
  seq := by rw [State.finish_seq]; exact h.seq
  pending j := by rw [State.finish_seq]; exact h.pending j
  ver := by rw [State.finish_ver]; exact h.ver
  comp := by rw [State.finish_log]; exact h.comp
  queue := by rw [State.finish_log]; exact h.queue
  dropped := by rw [State.finish_log]; exact h.dropped
  released := by rw [State.finish_adm]; exact h.released

theorem RoundCloses.joins (h : RoundCloses c s k r) (takes : s.TakesRecord) :
    k.takeRecord.recordTaken = k.roundOver.takePending ∧ RoundOver c s k.roundOver r := by
  have same : k.TakesRecord := by
    unfold State.TakesRecord
    rw [h.queue, h.frame.settings (by decide)]
    exact takes
  have joined := State.takeRecord_joins h.comp same
  unfold State.roundOver
  generalize k.takeRecord = d at *
  have seq : d.seq = k.seq := joined.frame.seq (by decide)
  have idle := Untouched.setRound d .idle
  have records := d.setRound_records .idle
  refine ⟨if_pos ⟨by rw [seq, h.seq], joined.comp⟩, h.frame.trans ((joined.frame.mono (by decide)).trans (idle.mono (by decide))),
    (h.arrived.after joined.frame (by decide) (by decide)).after idle (by decide) (by decide), ?_, fun j => ?_, ?_,
    records.comp.trans joined.comp, ?_, ?_, ?_⟩
  · rw [State.setRound_seq, seq, h.seq]
  · rw [State.setRound_seq, seq]
    exact h.pending j
  · rw [State.setRound_ver, joined.frame.ver (by decide), h.ver]
  · rw [records.queue, joined.queue, h.queue]
  · rw [records.dropped, joined.dropped, h.queue, h.dropped]
  · rw [State.setRound_adm, joined.frame.adm (by decide)]
    exact h.released

/-- The round of the lowest pending slot begins at once (R73, R95). -/
theorem RoundOver.begins {t : State} {i : Fin 4} {e : Nat} (h : RoundOver c s t r) (stop : c ≠ .stopChange)
    (pending : s.seq.pendingSet[i] = some e) (lowest : ∀ j : Fin 4, j < i → s.seq.pendingSet[j] = none) :
    RoundBegun t t.takePending i e := by
  refine State.takePending_begins (by rw [h.seq]) ?_ fun j below => ?_
  · rw [h.pending, if_neg stop, pending]
  · rw [h.pending, if_neg stop, lowest j below]
end

/-! ### No round to end -/

section
variable {s : State}

theorem exec_abort_ignored {f : CommandFrame} (reaches : s.Reaches f 1) (inactive : s.seq.state = .idle ∨ s.seq.state = .closing) :
    exec (.abort f) s = done (s.onLink Link.heard) := by
  have ignored : (s.onLink Link.heard).cutRound .aborted = s.onLink Link.heard :=
    if_neg (by rcases inactive with state | state <;> rw [State.onLink_seq, state] <;> decide)
  rw [exec_abort_reaches reaches, ignored]
theorem exec_stop_unneeded (running : s.loader.phase = .running) (timer : s.port.stop.timer.on = true)
    (level : s.port.stop.level = true) (inactive : s.seq.state = .idle ∨ s.seq.state = .closing) :
    exec .stopChange s = done s.stopping := by
  have ignored : s.stopping.cutRound .stopped = s.stopping :=
    if_neg (by rw [State.stopping_seq]; rcases inactive with state | state <;> rw [state] <;> decide)
  rw [exec_stop_active running timer level, ignored]

/-- STOP refuses what was pending, if anything was (R93). -/
theorem State.stopping_log (s : State) : s.stopping.log =
    if ∃ j : Fin 4, s.seq.pendingSet[j] ≠ none then s.log.setFlag .requestRefused else s.log := by
  have any : (allFour.any fun i => (s.seq.pendingSet[i]).isSome) = true ↔ ∃ j : Fin 4, s.seq.pendingSet[j] ≠ none := by
    rw [List.any_eq_true]
    exact ⟨fun ⟨j, _, hj⟩ => ⟨j, Option.isSome_iff_ne_none.1 hj⟩,
      fun ⟨j, hj⟩ => ⟨j, List.mem_finRange j, Option.isSome_iff_ne_none.2 hj⟩⟩
  unfold State.stopping State.stickyIf
  split <;> rename_i held
  · rw [if_pos (any.1 held)]
    rfl
  · rw [if_neg fun k => held (any.2 k)]
    rfl
end

end Sys2Proof.Machine

open Sys2Proof Sys2Proof.Machine

/-- Settles O35: every early end brings the round to CLOSING with its record complete; from there the queue decides. -/
theorem roundEndsEarly : Obligations.RoundEndsEarly := by
  refine ⟨fun c o s x ends fits comp nothing => ?_, fun c o s x i e st ends fits comp stop pending lowest hst => ?_,
    fun f s reaches inactive => ?_, fun s running timer => ⟨fun level => ?_, fun level inactive => ?_⟩⟩
  · obtain ⟨k, run, closes⟩ := ends.closes fits comp
    have none' (j : Fin 4) : (if c = .stopChange then none else s.seq.pendingSet[j]) = none := by
      split <;> [rfl; exact nothing ‹_› j]
    obtain ⟨number, slot, endIndex⟩ := s.cutRecord_kept o x.record
    by_cases takes : s.TakesRecord
    · obtain ⟨taken, finished⟩ := closes.joins takes
      have idle : k.roundOver.takePending = k.roundOver := State.takePending_of_none fun j => (finished.pending j).trans (none' j)
      rw [taken, idle] at run
      have finished := finished.finish
      refine ⟨_, s.cutRecord o x.record, run, finished.frame, finished.arrived, fun j => (finished.pending j).trans (none' j), ?_⟩
      rw [if_pos takes, finished.seq]
      exact ⟨rfl, rfl, rfl, rfl, finished.ver, ⟨rfl, finished.comp, finished.queue, finished.dropped⟩, rfl, number, slot, endIndex,
        rfl, rfl, rfl, rfl, rfl, rfl, s.cutRecord_results o x.record, finished.released⟩
    · rw [closes.waits takes] at run
      have closes := closes.finish
      refine ⟨_, s.cutRecord o x.record, run, closes.frame, closes.arrived, fun j => (closes.pending j).trans (none' j), ?_⟩
      rw [if_neg takes, closes.seq]
      exact ⟨rfl, rfl, rfl, rfl, closes.ver, ⟨rfl, closes.comp, closes.queue, closes.dropped⟩, rfl, number, slot, endIndex,
        rfl, rfl, rfl, rfl, rfl, rfl, s.cutRecord_results o x.record, closes.released⟩
  · obtain ⟨k, run, closes⟩ := ends.closes fits comp
    have number := (s.cutRecord_kept o x.record).1
    by_cases takes : s.TakesRecord
    · obtain ⟨taken, finished⟩ := closes.joins takes
      rw [taken] at run
      have begun := (finished.begins stop pending lowest).finish
      generalize k.roundOver = d at *
      have fresh := begun.fresh.congr (s := s) (by rw [finished.seq]) (finished.frame.settings (by decide))
      have entered := begun.entered
      rw [finished.frame.store (by decide), ← hst] at fresh entered
      obtain ⟨y, begins, unfinished, hy, -, -, results⟩ := begun.comp
      refine ⟨_, s.cutRecord o x.record, run, finished.frame.trans (begun.frame.mono (by decide)),
        finished.arrived.after begun.frame (by decide) (by decide), rfl, number, s.cutRecord_results o x.record, ?_⟩
      rw [if_pos takes]
      refine ⟨begun.queue.trans finished.queue, begun.slot, begun.endIndex, begun.number.trans (by rw [finished.seq]), fresh, entered,
        fun j => ?_, y, begins, unfinished, hy, results⟩
      rw [begun.pending, finished.pending, if_neg stop]
    · rw [closes.waits takes] at run
      have closes := closes.finish
      refine ⟨_, s.cutRecord o x.record, run, closes.frame, closes.arrived, rfl, number, s.cutRecord_results o x.record, ?_⟩
      rw [if_neg takes]
      refine ⟨by rw [closes.seq], Vector.ext fun j hj => ?_, closes.comp, closes.queue⟩
      exact (closes.pending ⟨j, hj⟩).trans (if_neg stop)
  · have arrived : Arrived (.abort f) s (s.onLink Link.heard) := ⟨rfl, rfl⟩
    exact ⟨_, exec_abort_ignored reaches inactive, (Untouched.onLink s _).finish, arrived.finish⟩
  · have arrived : Arrived .stopChange s (s.onPort fun p => { p with stop := p.stop.settled }) := ⟨rfl, rfl⟩
    exact ⟨_, exec_stop_inactive running timer level, (Untouched.onPort s _).finish, arrived.finish⟩
  · exact ⟨_, exec_stop_unneeded running timer level inactive, s.stopping_frame.finish, s.stopping_arrived.finish,
      (State.finish_seq _).trans s.stopping_seq, (State.finish_log _).trans s.stopping_log⟩

end

section
/-! What the round rests on (R69, R76, R88, R95, R98, R166): round state, attempt, verifier mode, timers and record as one view, which
in a fitting state the round state alone determines; and what each shared operation makes of it. -/

namespace Sys2Proof.Machine

/-! ### The view -/

/-- Whether the verifier runs a step; none in OFF (R98). -/
def Mode.runs : Mode → Option Bool
  | .off => none
  | .standby => some false
  | .burst => some true
  | .burstDone => some true
  | .pause => some true
  | .halted => some true

/-- What of the state the round's agreement rests on: `record` tells whether there is one under composition, and whether it is
complete. -/
structure RoundView where
  state : RoundState
  opened : Bool
  runs : Option Bool
  stepTimer : Bool
  suspendTimer : Bool
  record : Option Bool

def State.roundView (s : State) : RoundView :=
  ⟨s.seq.state, s.seq.attemptOpen, s.ver.mode.runs, s.seq.stepTimer.on, s.seq.suspendTimer.on, s.log.comp.map (·.complete)⟩

/-- The view that agrees with a round state (R76, R81, R88, R94, R98, R166). -/
def RoundState.view : RoundState → RoundView
  | .idle => ⟨.idle, false, none, false, false, none⟩
  | .holdWait => ⟨.holdWait, true, some false, false, false, some false⟩
  | .waiting => ⟨.waiting, true, some false, false, false, some false⟩
  | .claiming => ⟨.claiming, true, some false, false, false, some false⟩
  | .running => ⟨.running, true, some true, true, false, some false⟩
  | .suspended => ⟨.suspended, false, none, false, true, some false⟩
  | .closing => ⟨.closing, false, none, false, false, some true⟩

theorem RoundState.view_state (r : RoundState) : r.view.state = r := by cases r <;> rfl

theorem Mode.runs_eq_none {m : Mode} : m.runs = none ↔ m = .off := by cases m <;> decide
theorem Mode.runs_eq_true {m : Mode} : m.runs = some true ↔ m.isRunning = true := by cases m <;> decide

/-- What the view of a round state tells is decided by the state. -/
theorem RoundState.view_tells (r : RoundState) : r.view.opened = r.attempting ∧ (r.view.runs = none ↔ r.attempting = false)
    ∧ (r.view.runs = some true ↔ r = .running) ∧ (r.view.suspendTimer = true ↔ r = .suspended)
    ∧ (r.view.stepTimer = true ↔ r = .running) ∧ (r.view.record = none ↔ r = .idle) ∧ (r.view.record = some true ↔ r = .closing) := by
  cases r <;> decide

theorem optionBool_ext {a b : Option Bool} (none' : a = none ↔ b = none) (true' : a = some true ↔ b = some true) : a = b := by
  rcases a with _ | _ | _ <;> rcases b with _ | _ | _ <;> simp_all

theorem Log.comp_view (l : Log) : (l.comp.map (·.complete) = none ↔ l.comp = none)
    ∧ (l.comp.map (·.complete) = some true ↔ l.waitingRecord.isSome = true) := by
  unfold Log.waitingRecord
  rcases l.comp with _ | ⟨r, complete⟩
  · simp
  · cases complete <;> simp

/-- Round state, attempt, verifier and record agree exactly where the view is the one of the round state. -/
theorem State.roundFits_iff (s : State) : s.RoundFits ↔ s.roundView = s.seq.state.view := by
  obtain ⟨opened', off', runs', suspended', stepTimer', record', closing'⟩ := s.seq.state.view_tells
  obtain ⟨none', waits⟩ := s.log.comp_view
  constructor
  · rintro ⟨attempt, off, runs, suspended, stepTimer, record, closing⟩
    have opened : s.seq.attemptOpen = s.seq.state.view.opened := attempt.trans opened'.symm
    have mode : s.ver.mode.runs = s.seq.state.view.runs := optionBool_ext
      (Mode.runs_eq_none.trans (off.trans (by rw [attempt, off']))) (Mode.runs_eq_true.trans (runs.trans runs'.symm))
    have step : s.seq.stepTimer.on = s.seq.state.view.stepTimer := Bool.eq_iff_iff.2 (stepTimer.trans stepTimer'.symm)
    have suspend : s.seq.suspendTimer.on = s.seq.state.view.suspendTimer :=
      Bool.eq_iff_iff.2 (suspended.trans suspended'.symm)
    have comp : s.log.comp.map (·.complete) = s.seq.state.view.record := optionBool_ext
      (none'.trans (record.symm.trans record'.symm)) (waits.trans (closing.symm.trans closing'.symm))
    unfold State.roundView
    rw [opened, mode, step, suspend, comp]
    cases s.seq.state <;> rfl
  · intro view
    have opened : s.seq.attemptOpen = s.seq.state.view.opened := congrArg RoundView.opened view
    have mode : s.ver.mode.runs = s.seq.state.view.runs := congrArg RoundView.runs view
    have step : s.seq.stepTimer.on = s.seq.state.view.stepTimer := congrArg RoundView.stepTimer view
    have suspend : s.seq.suspendTimer.on = s.seq.state.view.suspendTimer := congrArg RoundView.suspendTimer view
    have comp : s.log.comp.map (·.complete) = s.seq.state.view.record := congrArg RoundView.record view
    exact ⟨opened.trans opened', by rw [← Mode.runs_eq_none, mode, off', opened, opened'],
      by rw [← Mode.runs_eq_true, mode, runs'], by rw [suspend, suspended'], by rw [step, stepTimer'],
      by rw [← none', comp, record'], by rw [← waits, comp, closing']⟩

section
variable {s t : State}

theorem State.RoundFits.view (h : s.RoundFits) {r : RoundState} (state : s.seq.state = r) : s.roundView = r.view :=
  state ▸ s.roundFits_iff.1 h
theorem State.RoundFits.of_view {r : RoundState} (h : s.roundView = r.view) : s.RoundFits := by
  have state : s.seq.state = r := (congrArg RoundView.state h).trans r.view_state
  rw [State.roundFits_iff, state]
  exact h
theorem State.RoundFits.congr (h : s.RoundFits) (same : t.roundView = s.roundView) : t.RoundFits :=
  .of_view (same.trans (h.view rfl))
theorem State.roundView_congr (seq : t.seq = s.seq) (ver : t.ver = s.ver) (comp : t.log.comp = s.log.comp) :
    t.roundView = s.roundView := by
  unfold State.roundView
  rw [seq, ver, comp]
end

/-! ### The operations -/

section
variable (s : State)

theorem State.roundView_setRound (r) : (s.setRound r).roundView = { s.roundView with state := r } := by
  unfold State.roundView
  rw [State.setRound_seq, State.setRound_ver, (s.setRound_records r).comp]
theorem State.roundView_enterRunning : s.enterRunning.roundView =
    { s.roundView with state := .running, runs := some true, stepTimer := true } :=
  State.roundView_setRound _ _
theorem State.roundView_restartAttempt : s.restartAttempt.roundView =
    { s.roundView with state := .waiting, runs := some false, stepTimer := false } :=
  State.roundView_setRound _ _
theorem State.roundView_releaseIfClaims : s.releaseIfClaims.roundView = s.roundView := by
  obtain ⟨frame, log, -⟩ := s.releaseIfClaims_spec
  exact State.roundView_congr (frame.seq (by decide)) (frame.ver (by decide)) log.records.comp

/-- An attempt that ends leaves no attempt open (R98). -/
theorem State.roundView_endAttempt (o) : (s.endAttempt o).roundView =
    { s.roundView with opened := false, runs := if s.seq.attemptOpen then none else s.roundView.runs } := by
  obtain ⟨-, seq, ver, log⟩ := s.endAttempt_spec o
  unfold State.roundView
  rw [seq, ver, log]
  split
  · cases s.log.comp <;> rfl
  · rfl
theorem State.roundView_haltAttempt (o) : (s.haltAttempt o).roundView =
    { s.roundView with opened := false, runs := if s.seq.attemptOpen then none else s.roundView.runs, stepTimer := false } :=
  congrArg (fun v : RoundView => { v with stepTimer := false }) (s.roundView_endAttempt o)
theorem State.roundView_enterSuspended (c) : (s.enterSuspended c).roundView =
    { s.roundView with state := .suspended, suspendTimer := true } := State.roundView_setRound _ _

/-- A step entered stands in HOLD_WAIT, WAITING or RUNNING, as the view of that state, with record and suspend timer as they were
(R76). -/
theorem State.roundView_enterStep (i confirmed) : ∃ r : RoundState, r.attempting = true ∧ r ≠ .claiming ∧
    (s.enterStep i confirmed).roundView = { r.view with suspendTimer := s.seq.suspendTimer.on, record := s.roundView.record } := by
  obtain ⟨fresh, entered, -, -, -, records, -, seq, -⟩ := s.enterStep_spec i confirmed
  have suspend : (s.enterStep i confirmed).seq.suspendTimer = s.seq.suspendTimer := by rw [seq]; rfl
  have view (r : RoundState) (state : (s.enterStep i confirmed).seq.state = r) (opened : r.view.opened = true)
      (timer : (s.enterStep i confirmed).seq.stepTimer.on = r.view.stepTimer)
      (mode : (s.enterStep i confirmed).ver.mode.runs = r.view.runs) : (s.enterStep i confirmed).roundView =
        { r.view with suspendTimer := s.seq.suspendTimer.on, record := s.roundView.record } := by
    unfold State.roundView
    rw [fresh.opened, state, timer, mode, records.comp, suspend]
    dsimp only
    rw [opened, r.view_state]
  unfold Entered at entered
  split at entered
  · obtain ⟨state, timer, mode⟩ := entered
    exact ⟨.holdWait, rfl, nofun, view _ state rfl (by rw [timer]; rfl) (by rw [mode]; rfl)⟩
  split at entered
  · obtain ⟨state, timer, mode⟩ := entered
    exact ⟨.running, rfl, nofun, view _ state rfl (by rw [timer]; rfl) (by rw [mode]; rfl)⟩
  · obtain ⟨state, timer, mode, -⟩ := entered
    exact ⟨.waiting, rfl, nofun, view _ state rfl (by rw [timer]; rfl) (by rw [mode]; rfl)⟩
end

end Sys2Proof.Machine
end

section
/-! The verifier's credit and volumes stay in their bounds (R104, R105, R112), and a sample moves it within the running modes (R106,
R109). -/

namespace Sys2Proof.Machine

section
variable {v : Verifier} (h : v.Sound)
include h

theorem Verifier.Sound.roundStart : v.roundStart.Sound := ⟨h.credit, rfl, Nat.two_pow_pos 40⟩
theorem Verifier.Sound.newAttempt (ms st) : (v.newAttempt ms st).Sound := ⟨Nat.zero_le _, h.volume, h.limit⟩
theorem Verifier.Sound.runningInBurst : v.runningInBurst.Sound := ⟨h.credit, h.volume, h.limit⟩
theorem Verifier.Sound.pauseBegins : v.pauseBegins.Sound := ⟨Nat.zero_le _, h.volume, h.limit⟩
theorem Verifier.Sound.newBurst : v.newBurst.Sound := ⟨Nat.zero_le _, h.volume, h.limit⟩
theorem Verifier.Sound.lastRepetition : v.lastRepetition.Sound := ⟨h.credit, h.volume, h.limit⟩
theorem Verifier.Sound.pauseEnds : v.pauseEnds.Sound := ⟨h.credit, h.volume, h.limit⟩
theorem Verifier.Sound.attemptEnded : v.attemptEnded.Sound := ⟨h.credit, h.volume, h.limit⟩
theorem Verifier.Sound.tick : v.tick.Sound := by
  unfold Verifier.tick
  split
  · exact ⟨h.credit, h.volume, h.limit⟩
  · split <;> exact ⟨h.credit, h.volume, h.limit⟩

/-- A volume is taken where it stays below 2^40, and goes to one side (R112). -/
theorem Verifier.Sound.addVolume (ms fr) : (v.addVolume ms fr).Sound := by
  have volume := h.volume
  unfold Verifier.addVolume
  split
  · exact h
  dsimp only
  split
  · exact h
  · rename_i below
    have below := Nat.not_le.1 below
    split
    · exact ⟨h.credit, by dsimp only; omega, below⟩
    · exact ⟨h.credit, by dsimp only; omega, below⟩
theorem Verifier.Sound.addStats (t) : (v.addStats t).Sound := ⟨h.credit, h.volume, h.limit⟩
theorem Verifier.Sound.addCredit (w) : (v.addCredit w).ver.Sound := by
  unfold Verifier.addCredit
  dsimp only
  split <;> exact ⟨Nat.min_le_right _ _, h.volume, h.limit⟩
theorem Verifier.Sound.addDropout (grace) : (v.addDropout grace).Sound := by
  unfold Verifier.addDropout
  split
  · exact ⟨Nat.zero_le _, h.volume, h.limit⟩
  · exact ⟨h.credit, h.volume, h.limit⟩
theorem Verifier.Sound.burstSample (limit st t) : (v.burstSample limit st t).ver.Sound := by
  have out := h.addDropout st.grace
  unfold Verifier.burstSample
  split
  · exact Verifier.Sound.addCredit (v := { v with sensorLoss := 0, dropout := 0 }) ⟨h.credit, h.volume, h.limit⟩ _
  dsimp only
  split
  · exact ⟨out.credit, out.volume, out.limit⟩
  · split <;> exact ⟨out.credit, out.volume, out.limit⟩
end

section
variable (v : Verifier)

theorem Verifier.addVolume_mode (ms fr) : (v.addVolume ms fr).mode = v.mode := by
  unfold Verifier.addVolume
  split
  · rfl
  dsimp only
  split
  · rfl
  · split <;> rfl
theorem Verifier.addCredit_runs {v : Verifier} (burst : v.mode = .burst) (w) : (v.addCredit w).ver.mode.runs = some true := by
  unfold Verifier.addCredit
  dsimp only
  split
  · rfl
  · dsimp only
    rw [burst]
    rfl
theorem Verifier.addDropout_mode (grace) : (v.addDropout grace).mode = v.mode := by
  unfold Verifier.addDropout; split <;> rfl
theorem Verifier.burstSample_runs {v : Verifier} (burst : v.mode = .burst) (limit st t) :
    (v.burstSample limit st t).ver.mode.runs = some true := by
  have mode := (v.addDropout_mode st.grace).trans burst
  unfold Verifier.burstSample
  split
  · exact Verifier.addCredit_runs (v := { v with sensorLoss := 0, dropout := 0 }) burst _
  dsimp only
  split
  · dsimp only
    rw [mode]
    rfl
  split
  · rfl
  · dsimp only
    rw [mode]
    rfl
end

/-- A sample keeps credit and volumes in their bounds, and leaves OFF, STANDBY and the running modes as they are but for the end of a
burst (R97, R104 to R112). -/
theorem Verifier.takeSample_keeps (ms limit : Nat) (st : Step) (set : Option ConvSet) (x : Sample) (v : Verifier) :
    (v.Sound → (v.takeSample ms limit st set x).ver.Sound) ∧ (v.takeSample ms limit st set x).ver.mode.runs = v.mode.runs := by
  unfold Verifier.takeSample
  split
  · dsimp only
    obtain ⟨w, hw⟩ : ∃ w, w = (({ v with
        current := some (compute set x), divert := decideDivert st set (compute set x).conc v.divert }).addVolume ms x.fr).addStats
          (compute set x) := ⟨_, rfl⟩
    rw [← hw]
    have sound (h : v.Sound) : w.Sound := by
      rw [hw]
      exact (Verifier.Sound.addVolume (v := { v with
        current := some (compute set x), divert := decideDivert st set (compute set x).conc v.divert }) ⟨h.credit, h.volume, h.limit⟩
        ms x.fr).addStats _
    have mode : w.mode = v.mode := by rw [hw]; exact Verifier.addVolume_mode _ ms x.fr
    split
    · rename_i burst
      have inBurst := mode.trans burst
      rw [burst]
      split
      · exact ⟨fun h => (sound h).addCredit _, Verifier.addCredit_runs inBurst _⟩
      · exact ⟨fun h => (sound h).burstSample _ _ _, Verifier.burstSample_runs inBurst _ _ _⟩
    · refine ⟨fun h => ?_, ?_⟩
      · split <;> exact ⟨(sound h).credit, (sound h).volume, (sound h).limit⟩
      · split <;> exact congrArg Mode.runs mode
    · exact ⟨sound, congrArg Mode.runs mode⟩
  · exact ⟨fun h => ⟨h.credit, h.volume, h.limit⟩, rfl⟩

end Sys2Proof.Machine
end

section
/-! What the operations of the round and of the admission unit keep of a round (R69, R74, R89, R104, R112, R172): its agreement, the
verifier's bounds, and a STATUS of its state in the slot from each change on. The relation is proved once for each operation. -/

namespace Sys2Proof.Machine

/-! ### The STATUS of a round state -/

/-- A STATUS carries the round state and the last cause of a suspension (R187). -/
theorem statusBytes_round (s : State) : (statusBytes s).length = 12 ∧ byteAt 0 (statusBytes s) 0 / 32 = s.seq.state.code
    ∧ byteAt 0 (statusBytes s) 8 % 8 = causeCode s.seq.lastCause := by
  have state : s.seq.state.code ≤ 6 := by cases s.seq.state <;> decide
  have adm : s.adm.state.code ≤ 1 := by cases s.adm.state <;> decide
  have link : s.link.state.code ≤ 3 := by cases s.link.state <;> decide
  have phase : s.seq.phase.code ≤ 1 := by cases s.seq.phase <;> decide
  have divert : s.ver.presented.code ≤ 1 := by cases s.ver.presented <;> decide
  have cause : causeCode s.seq.lastCause ≤ 5 := by rcases s.seq.lastCause with _ | c <;> [decide; (cases c <;> decide)]
  refine ⟨rfl, ?_, ?_⟩
  · show (BitVec.ofNat 8 (s.seq.state.code * 32 + s.adm.state.code * 16 + s.link.state.code * 4 + s.seq.phase.code * 2
      + s.ver.presented.code)).toNat / 32 = _
    rw [BitVec.toNat_ofNat]
    omega
  · show (BitVec.ofNat 8 (s.log.queue.length * 32 + causeCode s.seq.lastCause)).toNat % 8 = _
    rw [BitVec.toNat_ofNat]
    omega

/-- The STATUS in the slot is one of the present round state, made as the round entered it: the state and, of a suspended round, the
cause are in its bytes, the suspend time beside them, and a copy of an earlier one is marked as replaced (R74, R89, R156, R172). -/
structure State.Stamped (s : State) : Prop where
  bytes : ∃ bytes, s.tx.status = some bytes ∧ bytes.length = 12 ∧ byteAt 0 bytes 0 / 32 = s.seq.state.code
    ∧ (s.seq.state = .suspended → byteAt 0 bytes 8 % 8 = causeCode s.seq.lastCause)
  time : s.tx.statusSuspend = some s.seq.suspendTimer.ms
  began : s.seq.state = .suspended → s.seq.suspendTimer.ms = 0
  marked : s.tx.copyFrom = some .status → s.tx.marks.status = true

theorem State.makeStatus_stamped (s : State) (began : s.seq.state = .suspended → s.seq.suspendTimer.ms = 0) : s.makeStatus.Stamped := by
  obtain ⟨length, state, cause⟩ := statusBytes_round s
  refine ⟨⟨statusBytes s, rfl, length, state, fun _ => cause⟩, rfl, began, ?_⟩
  have copied : s.makeStatus.tx.copyFrom = s.tx.copyFrom := ((Steady.refl s).makeStatus).copy
  rw [copied]
  exact s.makeStatus_tx.2

/-- All that a STATUS of the round's state rests on is as it was. -/
structure StatusKept (s t : State) : Prop where
  state : t.seq.state = s.seq.state
  timer : t.seq.suspendTimer = s.seq.suspendTimer
  cause : t.seq.lastCause = s.seq.lastCause
  status : t.tx.status = s.tx.status
  time : t.tx.statusSuspend = s.tx.statusSuspend
  copy : t.tx.copyFrom = some .status → s.tx.copyFrom = some .status
  mark : s.tx.marks.status = true → t.tx.marks.status = true

theorem State.Stamped.keep {s t : State} (h : s.Stamped) (k : StatusKept s t) : t.Stamped := by
  obtain ⟨bytes, time, began, marked⟩ := h
  rw [← k.state, ← k.status, ← k.cause] at bytes
  rw [← k.time, ← k.timer] at time
  rw [← k.state, ← k.timer] at began
  exact ⟨bytes, time, began, fun copy => k.mark (marked (k.copy copy))⟩

/-! ### The relations -/

/-- Credit and volumes stay in their bounds, STATUS and suspend time in the slot stay together, and a busy medium stays busy. -/
structure Carried (s t : State) : Prop where
  sound : s.ver.Sound → t.ver.Sound
  slot : s.tx.status.isSome = s.tx.statusSuspend.isSome → t.tx.status.isSome = t.tx.statusSuspend.isSome
  medium : s.link.medium = .busy → t.link.medium = .busy

/-- And each change of round state leaves a STATUS of the new state in the slot (R74). -/
structure Traced (s t : State) : Prop extends Carried s t where
  stamped : s.Stamped → t.Stamped
  changed : t.seq.state ≠ s.seq.state → t.Stamped

/-- And a round whose parts agree goes on as one. -/
structure Rounds (s t : State) : Prop extends Traced s t where
  fits : s.RoundFits → t.RoundFits

theorem Carried.refl (s : State) : Carried s s := ⟨id, id, id⟩
theorem Traced.refl (s : State) : Traced s s := ⟨.refl s, id, fun k => absurd rfl k⟩
theorem Rounds.refl (s : State) : Rounds s s := ⟨.refl s, id⟩

section
variable {s t u : State}

theorem Carried.trans (h : Carried s t) (k : Carried t u) : Carried s u :=
  ⟨fun x => k.sound (h.sound x), fun x => k.slot (h.slot x), fun x => k.medium (h.medium x)⟩
theorem Traced.trans (h : Traced s t) (k : Traced t u) : Traced s u := by
  refine ⟨h.toCarried.trans k.toCarried, fun x => k.stamped (h.stamped x), fun moved => ?_⟩
  by_cases same : u.seq.state = t.seq.state
  · exact k.stamped (h.changed (same ▸ moved))
  · exact k.changed same
theorem Rounds.trans (h : Rounds s t) (k : Rounds t u) : Rounds s u := ⟨h.toTraced.trans k.toTraced, fun x => k.fits (h.fits x)⟩

theorem Traced.keep (h : Traced s t) (carried : Carried t u) (k : StatusKept t u) : Traced s u :=
  h.trans ⟨carried, fun x => x.keep k, fun moved => absurd k.state moved⟩
/-- Where the last part of an operation changes the round state, what came before it is free to part from the STATUS in the slot. -/
theorem Carried.traced (h : Carried s t) (k : Traced t u) (moved : u.seq.state ≠ t.seq.state) : Traced s u :=
  ⟨h.trans k.toCarried, fun _ => k.changed moved, fun _ => k.changed moved⟩
/-- An operation that leaves the view of the round leaves its agreement. -/
theorem Rounds.calm (h : Rounds s t) (k : Traced t u) (view : u.roundView = t.roundView) : Rounds s u :=
  h.trans ⟨k, fun fits => fits.congr view⟩
end

/-! ### Single changes -/

section
variable {s t : State}

theorem Carried.onSeq (h : Carried s t) (f) : Carried s (t.onSeq f) := h.trans ⟨id, id, id⟩
theorem Carried.onVer (h : Carried s t) (f : Verifier → Verifier) (sound : t.ver.Sound → (f t.ver).Sound) : Carried s (t.onVer f) :=
  h.trans ⟨sound, id, id⟩
theorem Carried.onLog (h : Carried s t) (f) : Carried s (t.onLog f) := h.trans ⟨id, id, id⟩
end

section
variable {s t : State} (h : Traced s t)
include h

theorem Traced.onSeq (f : Sequencer → Sequencer) (state : (f t.seq).state = t.seq.state)
    (timer : (f t.seq).suspendTimer = t.seq.suspendTimer) (cause : (f t.seq).lastCause = t.seq.lastCause) : Traced s (t.onSeq f) :=
  h.keep ⟨id, id, id⟩ ⟨state, timer, cause, rfl, rfl, id, id⟩
theorem Traced.onVer (f : Verifier → Verifier) (sound : t.ver.Sound → (f t.ver).Sound) : Traced s (t.onVer f) :=
  h.keep ⟨sound, id, id⟩ ⟨rfl, rfl, rfl, rfl, rfl, id, id⟩
theorem Traced.onLog (f) : Traced s (t.onLog f) := h.keep ⟨id, id, id⟩ ⟨rfl, rfl, rfl, rfl, rfl, id, id⟩
theorem Traced.sticky (f) : Traced s (t.sticky f) := h.onLog _
theorem Traced.stickyIf (c f) : Traced s (t.stickyIf c f) := by unfold State.stickyIf; split <;> [exact h.sticky f; exact h]
theorem Traced.onTx (f : Selector → Selector) (status : (f t.tx).status = t.tx.status)
    (time : (f t.tx).statusSuspend = t.tx.statusSuspend) (copy : (f t.tx).copyFrom = some .status → t.tx.copyFrom = some .status)
    (mark : t.tx.marks.status = true → (f t.tx).marks.status = true) : Traced s (t.onTx f) :=
  h.keep ⟨id, fun k => (congrArg Option.isSome status).trans (k.trans (congrArg Option.isSome time).symm), id⟩
    ⟨rfl, rfl, rfl, status, time, copy, mark⟩
theorem Traced.makeStatus : Traced s t.makeStatus :=
  h.trans ⟨⟨id, fun _ => rfl, id⟩, fun stamped => t.makeStatus_stamped stamped.began, fun moved => absurd rfl moved⟩
/-- A change of round state, at which a STATUS is made; a round is suspended with its suspend timer at 0 (R74, R88). -/
theorem Traced.setRound (r : RoundState) (began : r = .suspended → t.seq.suspendTimer.ms = 0) : Traced s (t.setRound r) := by
  unfold State.setRound
  split
  · exact h
  · exact h.trans ⟨⟨id, fun _ => rfl, id⟩, fun _ => State.makeStatus_stamped _ began, fun _ => State.makeStatus_stamped _ began⟩
end

section
variable {s t : State} (h : Rounds s t)
include h

theorem Rounds.onAdm (f) : Rounds s (t.onAdm f) :=
  h.calm ((Traced.refl t).keep ⟨id, id, id⟩ ⟨rfl, rfl, rfl, rfl, rfl, id, id⟩) rfl
theorem Rounds.onUpdates (f) : Rounds s (t.onUpdates f) :=
  h.calm ((Traced.refl t).keep ⟨id, id, id⟩ ⟨rfl, rfl, rfl, rfl, rfl, id, id⟩) rfl
theorem Rounds.onBoard (f) : Rounds s (t.onBoard f) :=
  h.calm ((Traced.refl t).keep ⟨id, id, id⟩ ⟨rfl, rfl, rfl, rfl, rfl, id, id⟩) rfl
theorem Rounds.onPort (f) : Rounds s (t.onPort f) :=
  h.calm ((Traced.refl t).keep ⟨id, id, id⟩ ⟨rfl, rfl, rfl, rfl, rfl, id, id⟩) rfl
theorem Rounds.onLoader (f) : Rounds s (t.onLoader f) :=
  h.calm ((Traced.refl t).keep ⟨id, id, id⟩ ⟨rfl, rfl, rfl, rfl, rfl, id, id⟩) rfl
theorem Rounds.onLink (f : Link → Link) (medium : t.link.medium = .busy → (f t.link).medium = .busy) : Rounds s (t.onLink f) :=
  h.calm ((Traced.refl t).keep ⟨id, id, medium⟩ ⟨rfl, rfl, rfl, rfl, rfl, id, id⟩) rfl
theorem Rounds.onLog (f : Log → Log) (comp : (f t.log).comp = t.log.comp) : Rounds s (t.onLog f) :=
  h.calm ((Traced.refl t).onLog f) (State.roundView_congr rfl rfl comp)
theorem Rounds.onTx (f : Selector → Selector) (status : (f t.tx).status = t.tx.status)
    (time : (f t.tx).statusSuspend = t.tx.statusSuspend) (copy : (f t.tx).copyFrom = some .status → t.tx.copyFrom = some .status)
    (mark : t.tx.marks.status = true → (f t.tx).marks.status = true) : Rounds s (t.onTx f) :=
  h.calm ((Traced.refl t).onTx f status time copy mark) rfl
/-- A slot that is replaced, and what is then placed in a class-A slot, leave the status slot and every mark that is set (R156). -/
theorem Rounds.placed (slot : SlotId) (f : Selector → Selector → Selector) (kept : ∀ x y : Selector, (f x y).status = y.status
    ∧ (f x y).statusSuspend = y.statusSuspend ∧ (f x y).copyFrom = y.copyFrom ∧ (f x y).marks = y.marks) :
    Rounds s (t.onTx fun x => f x (x.replaced slot)) := by
  obtain ⟨status, time, copy, marks⟩ := kept t.tx (t.tx.replaced slot)
  have replaced : (t.tx.replaced slot).status = t.tx.status ∧ (t.tx.replaced slot).statusSuspend = t.tx.statusSuspend
      ∧ (t.tx.replaced slot).copyFrom = t.tx.copyFrom ∧ (t.tx.marks.status = true → (t.tx.replaced slot).marks.status = true) := by
    unfold Selector.replaced
    split
    · refine ⟨rfl, rfl, rfl, fun set => ?_⟩
      cases slot with
      | status => rfl
      | own => exact set
      | product => exact set
      | stream => exact set
    · exact ⟨rfl, rfl, rfl, id⟩
  obtain ⟨status', time', copy', mark'⟩ := replaced
  exact h.onTx _ (status.trans status') (time.trans time') (fun k => by rw [copy, copy'] at k; exact k)
    (fun set => by rw [marks]; exact mark' set)
theorem Rounds.placeOwn (c) : Rounds s (t.placeOwn c) := h.placed .own (fun _ y => { y with own := c }) fun _ _ => ⟨rfl, rfl, rfl, rfl⟩
theorem Rounds.placeProduct (i c) : Rounds s (t.placeProduct i c) :=
  h.placed (.product i) (fun x y => { y with product := modAt x.product i fun _ => c }) fun _ _ => ⟨rfl, rfl, rfl, rfl⟩
theorem Rounds.enter (o) : Rounds s (t.onAdm (Admission.enter o)) := h.onAdm _
theorem Rounds.sticky (f) : Rounds s (t.sticky f) := h.onLog _ rfl
theorem Rounds.stickyIf (c f) : Rounds s (t.stickyIf c f) := by unfold State.stickyIf; split <;> [exact h.sticky f; exact h]
theorem Rounds.makeStatus : Rounds s t.makeStatus := h.calm (Traced.refl t).makeStatus rfl
theorem Rounds.enqueue (op) : Rounds s (t.enqueue op) := by
  unfold State.enqueue
  dsimp only
  split
  · exact (((h.onUpdates _).onUpdates _).onLink _ id).sticky _
  · exact h.onUpdates _
theorem Rounds.dequeue : Rounds s t.dequeue := by
  unfold State.dequeue
  dsimp only
  split
  · exact ((h.onUpdates _).onUpdates _).onLink _ id
  · exact h.onUpdates _
theorem Rounds.placeOp (op) : Rounds s (t.placeOp op) := by
  unfold State.placeOp; split <;> [exact (h.onAdm _).enqueue _; exact h.onAdm _]
theorem Rounds.opDone : Rounds s t.opDone := by
  unfold State.opDone; split <;> [exact h.onAdm _; exact (h.onAdm _).enqueue _]
theorem Rounds.requestEval (b) : Rounds s (t.requestEval b) := by
  rcases t.requestEval_cases b with ⟨-, e⟩ | ⟨-, -, e⟩ | ⟨-, -, e⟩ <;> rw [e]
  · exact h
  · exact (h.onAdm _).placeOp _
  · exact h.onAdm _
theorem Rounds.placeAnnounce (st l) : Rounds s (t.placeAnnounce st l) := (h.placeOwn _).onAdm _
theorem Rounds.updateOwn (st) : Rounds s (t.updateOwn st) := h.placeOp _
theorem Rounds.releaseRequest : Rounds s t.releaseRequest := by
  unfold State.releaseRequest
  split
  · exact h
  rename_i st _
  dsimp only
  have withdrawn := h.onAdm fun a => { a with standing := none, framePlaced := false }
  split
  · exact withdrawn
  have removed := (withdrawn.placeOp (.ownRemove .cip (resourcesOf st.pairs))).enter .none
  split <;> [exact removed.placeOwn _; exact removed]
theorem Rounds.receiveRequest (p g) : Rounds s (t.receiveRequest p g) := by
  unfold State.receiveRequest
  dsimp only
  split <;> [exact h.onAdm _; exact h.releaseRequest.onAdm _]
theorem Rounds.releaseIfClaims : Rounds s t.releaseIfClaims := by
  unfold State.releaseIfClaims; split <;> [exact h; exact h.releaseRequest]
end

/-! ### Reports of the admission unit -/

/-- The states in which an open attempt waits (R76). -/
def RoundState.standby (r : RoundState) : Prop := r = .holdWait ∨ r = .waiting ∨ r = .claiming

theorem RoundState.standby.view {r : RoundState} (h : r.standby) : r.view = ⟨r, true, some false, false, false, some false⟩ := by
  rcases h with rfl | rfl | rfl <;> rfl

theorem Traced.enterRunning {s t : State} (h : Traced s t) : Traced s t.enterRunning :=
  ((h.onSeq _ rfl rfl rfl).onVer _ fun k => k.runningInBurst).setRound _ nofun
theorem Traced.restartAttempt {s t : State} (h : Traced s t) : Traced s t.restartAttempt :=
  ((h.onSeq _ rfl rfl rfl).onVer _ fun k => k.newAttempt _ _).setRound _ nofun

section
variable {s t : State} (h : Rounds s t)
include h

theorem Rounds.stands {r : RoundState} (was : t.seq.state.standby) (is : r.standby) : Rounds s (t.setRound r) := by
  refine h.trans ⟨(Traced.refl t).setRound r fun k => ?_, fun fits => .of_view (r := r) ?_⟩
  · rcases is with rfl | rfl | rfl <;> cases k
  · rw [State.roundView_setRound, fits.view rfl, was.view, is.view]
theorem Rounds.enterRunning (was : t.seq.state.standby) : Rounds s t.enterRunning := by
  refine h.trans ⟨(Traced.refl t).enterRunning, fun fits => .of_view (r := .running) ?_⟩
  rw [State.roundView_enterRunning, fits.view rfl, was.view]
  rfl
theorem Rounds.restartAttempt (was : t.seq.state = .running) : Rounds s t.restartAttempt := by
  refine h.trans ⟨(Traced.refl t).restartAttempt, fun fits => .of_view (r := .waiting) ?_⟩
  rw [State.roundView_restartAttempt, fits.view was]
  rfl
theorem Rounds.reportWaiting : Rounds s t.reportWaiting := by
  unfold State.reportWaiting
  split
  · split
    · rename_i claiming
      exact h.stands (.inr (.inr claiming)) (.inr (.inl rfl))
    · rename_i running
      exact h.restartAttempt running
    · exact h
  · exact h
theorem Rounds.reportClaiming : Rounds s t.reportClaiming := by
  unfold State.reportClaiming
  split
  · split
    · rename_i waiting
      exact h.stands (.inr (.inl waiting)) (.inr (.inr rfl))
    · exact h
  · exact h
theorem Rounds.reportRunning : Rounds s t.reportRunning := by
  unfold State.reportRunning
  split
  · split
    · rename_i waiting
      exact h.enterRunning (.inr (.inl waiting))
    · rename_i claiming
      exact h.enterRunning (.inr (.inr claiming))
    · exact h
  · exact h
theorem Rounds.takeRequest : Rounds s t.takeRequest := by
  unfold State.takeRequest
  split
  · exact h
  · split <;> [exact (((h.placeOp _).enter _).reportWaiting).requestEval _; exact h]
theorem Rounds.chainRequest (p g) : Rounds s (t.chainRequest p g) := by
  unfold State.chainRequest
  split
  · exact (((h.onAdm _).placeOp _).placeAnnounce _ _).reportRunning
  · exact (h.receiveRequest _ _).takeRequest
end

/-! ### Attempts -/

section
variable {s t : State} (h : Traced s t)
include h

theorem Traced.openAttempt (i) : Traced s (t.openAttempt i) :=
  ((h.onSeq _ rfl rfl rfl).onSeq _ rfl rfl rfl).onVer _ fun k => k.newAttempt _ _
theorem Traced.proceed : Traced s t.proceed := by
  unfold State.proceed
  split
  · exact h.enterRunning
  · rename_i p ps _
    have asked := h.trans ((Rounds.refl t).receiveRequest (p :: ps) t.seq.tag).toTraced
    exact (asked.setRound .waiting nofun).trans (Rounds.refl _).takeRequest.toTraced
theorem Traced.enterStep (i c) : Traced s (t.enterStep i c) := by
  unfold State.enterStep
  dsimp only
  split <;> [exact (h.openAttempt _).setRound _ nofun; exact (h.openAttempt _).proceed]
theorem Traced.endAttempt (o) : Traced s (t.endAttempt o) := by
  unfold State.endAttempt; split <;> [exact ((h.onVer _ fun k => k.attemptEnded).onLog _).onSeq _ rfl rfl rfl; exact h]
theorem Traced.haltAttempt (o) : Traced s (t.haltAttempt o) := (h.endAttempt _).onSeq _ rfl rfl rfl
theorem Traced.releaseIfClaims : Traced s t.releaseIfClaims := h.trans (Rounds.refl t).releaseIfClaims.toTraced
theorem Traced.standAgain : Traced s t.standAgain := by
  unfold State.standAgain
  split
  · exact h.setRound _ nofun
  · split <;> [exact h.enterRunning; exact h.setRound _ nofun]
/-- A round that was not suspended is, with its cause and its suspend timer at 0 (R88). -/
theorem Traced.enterSuspended (active : t.seq.state ≠ .suspended) (c) : Traced s (t.enterSuspended c) := by
  refine (h.toCarried.onSeq _).traced ((Traced.refl _).setRound .suspended fun _ => rfl) fun same => active ?_
  exact same.symm.trans (congrArg RoundView.state (t.roundView_enterSuspended c))
end

section
variable {s : State}

/-- A step entered where no attempt is open changes the round state. -/
theorem State.enterStep_moves (still : s.seq.state.attempting = false) (i c) : (s.enterStep i c).seq.state ≠ s.seq.state := by
  obtain ⟨r, attempting, -, view⟩ := s.roundView_enterStep i c
  have state : (s.enterStep i c).seq.state = r := (congrArg RoundView.state view).trans r.view_state
  rw [state]
  rintro rfl
  exact absurd (attempting.symm.trans still) nofun

/-- What comes before a step is entered with no attempt open is free to part from the STATUS in the slot. -/
theorem Carried.enters {t : State} (h : Carried s t) (still : t.seq.state.attempting = false) (i c) : Traced s (t.enterStep i c) :=
  h.traced ((Traced.refl _).enterStep i c) (State.enterStep_moves still i c)

/-- A round state with an open attempt sees the suspend timer stopped and the record incomplete. -/
theorem RoundState.view_attempting {r : RoundState} (h : r.attempting = true) :
    { r.view with suspendTimer := false, record := some false } = r.view := by
  cases r with
  | idle => cases h
  | suspended => cases h
  | closing => cases h
  | holdWait => rfl
  | waiting => rfl
  | claiming => rfl
  | running => rfl

/-- Entering a step agrees with a record under composition and a stopped suspend timer. -/
theorem State.enterStep_fits (timer : s.roundView.suspendTimer = false) (record : s.roundView.record = some false) (i c) :
    (s.enterStep i c).RoundFits := by
  obtain ⟨r, attempting, -, view⟩ := s.roundView_enterStep i c
  have timer : s.seq.suspendTimer.on = false := timer
  rw [timer, record, RoundState.view_attempting attempting] at view
  exact .of_view view

/-- What ending an open attempt leaves of a round whose parts agree. -/
theorem State.RoundFits.halted (h : s.RoundFits) (active : s.seq.state.attempting = true) (o) :
    (s.haltAttempt o).roundView = ⟨s.seq.state, false, none, false, false, some false⟩ := by
  have opened : s.seq.attemptOpen = true := h.attempt.trans active
  have view := h.view rfl
  have attempting := RoundState.view_attempting active
  rw [State.roundView_haltAttempt, if_pos opened, view, ← attempting]
  dsimp only
  rw [RoundState.view_state]
end

end Sys2Proof.Machine
end

section
/-! What the round sequencer's own operations keep of a round (R76 to R95): each passes on the agreement, the verifier's bounds and the
STATUS in the slot. -/

namespace Sys2Proof.Machine

/-! ### Steps and suspension -/

section
variable {s t : State} (h : Rounds s t)
include h

theorem Rounds.proceed (holds : t.seq.state = .holdWait) : Rounds s t.proceed := by
  unfold State.proceed
  split
  · exact h.enterRunning (.inl holds)
  · rename_i p ps _
    have asked : (t.receiveRequest (p :: ps) t.seq.tag).seq.state = .holdWait :=
      (congrArg Sequencer.state ((t.receiveRequest_spec _ _).frame.seq (by decide))).trans holds
    exact ((h.receiveRequest _ _).stands (.inl asked) (.inr (.inl rfl))).takeRequest

/-- A round with an open attempt is suspended (R88). -/
theorem Rounds.suspend (active : t.seq.state.attempting = true) (c) : Rounds s (t.suspend c) := by
  have halted : (t.haltAttempt c.outcome).releaseIfClaims.seq.state = t.seq.state :=
    congrArg RoundView.state ((State.roundView_releaseIfClaims _).trans (t.roundView_haltAttempt _))
  refine h.trans ⟨((Traced.refl t).haltAttempt _).releaseIfClaims.enterSuspended ?_ c, fun fits => .of_view (r := .suspended) ?_⟩
  · rw [halted]
    intro suspended
    rw [suspended] at active
    cases active
  · unfold State.suspend
    rw [State.roundView_enterSuspended, State.roundView_releaseIfClaims, fits.halted active]
    rfl

/-- In IDLE the lowest pending request is taken, and its round begins at step 0 (R73, R76). -/
theorem Rounds.takePending : Rounds s t.takePending := by
  unfold State.takePending
  split
  · rename_i idle
    split
    · exact h
    · refine h.trans ⟨Carried.enters ((((Carried.refl t).onSeq _).onLog _).onVer _ fun k => k.roundStart)
        ?_ 0 false, fun fits => State.enterStep_fits ?_ rfl 0 false⟩
      · exact congrArg RoundState.attempting idle
      · exact congrArg RoundView.suspendTimer (fits.view idle)
  · exact h

theorem Rounds.resumeRound (confirmed) : Rounds s (t.resumeRound confirmed) := by
  unfold State.resumeRound
  split
  · rename_i resumes
    have suspended := resumes.1
    refine h.trans ⟨((Carried.refl t).onSeq _).enters ?_ _ _, fun fits => State.enterStep_fits rfl ?_ _ _⟩
    · exact congrArg RoundState.attempting suspended
    · exact congrArg RoundView.record (fits.view suspended)
  · exact h

theorem Rounds.roundRequest (i e) : Rounds s (t.roundRequest i e) := by
  unfold State.roundRequest
  split
  · exact h.sticky _
  · exact (h.calm ((Traced.refl t).onSeq _ rfl rfl rfl) rfl).takePending
end

/-! ### The record and the end of a round -/

section
variable {s t : State}

theorem Traced.takeRecord (h : Traced s t) : Traced s t.takeRecord := by
  have replaced := h.trans ((Rounds.refl t).placed .stream (fun _ y => y) fun _ _ => ⟨rfl, rfl, rfl, rfl⟩).toTraced
  unfold State.takeRecord
  split
  · exact h
  split
  · exact h.onLog _
  split
  · exact (replaced.onLog _).sticky _
  · exact h
theorem Traced.recordTaken (h : Traced s t) : Traced s t.recordTaken := by
  unfold State.recordTaken
  split <;> [exact (h.setRound .idle nofun).trans (Rounds.refl _).takePending.toTraced; exact h]

/-- A complete record waits in CLOSING alone, so that one that joins the queue ends the round (R95, R166 to R168). -/
theorem State.RoundFits.recordTaken (fits : t.RoundFits) : t.takeRecord.recordTaken.RoundFits := by
  by_cases closing : t.seq.state = .closing
  · obtain ⟨x, comp, complete⟩ := Option.map_eq_some_iff.1 (congrArg RoundView.record (fits.view closing))
    obtain ⟨r, c⟩ := x
    subst complete
    by_cases takes : t.TakesRecord
    · have joined := State.takeRecord_joins comp takes
      have taken : t.takeRecord.recordTaken = (t.takeRecord.setRound .idle).takePending :=
        if_pos ⟨by rw [joined.frame.seq (by decide)]; exact closing, joined.comp⟩
      have idle : (t.takeRecord.setRound .idle).roundView = RoundState.idle.view := by
        have view := fits.view closing
        rw [State.roundView_setRound]
        unfold State.roundView at view ⊢
        rw [joined.frame.seq (by decide), joined.frame.ver (by decide), joined.comp]
        exact congrArg (fun v : RoundView => { v with state := .idle, record := none }) view
      rw [taken]
      exact (Rounds.refl _).takePending.fits (.of_view idle)
    · rw [State.takeRecord_waits comp takes, State.recordTaken_of_comp (by rw [comp]; nofun)]
      exact fits
  · have unfinished : ∀ w, t.log.comp ≠ some ⟨w, true⟩ := fun w comp => by
      have waits : t.log.waitingRecord.isSome = true := by unfold Log.waitingRecord; rw [comp]; rfl
      exact closing (fits.closing.2 waits)
    rw [State.takeRecord_of_unfinished unfinished]
    unfold State.recordTaken
    rw [if_neg fun taken => closing taken.1]
    exact fits

theorem Rounds.recordTaken (h : Rounds s t) : Rounds s t.takeRecord.recordTaken :=
  h.trans ⟨(Traced.refl t).takeRecord.recordTaken, fun fits => fits.recordTaken⟩

theorem State.roundView_closed (t : State) (o) : (t.closed o).roundView = { t.roundView with
    state := .closing, runs := none, stepTimer := false, suspendTimer := false
    record := t.roundView.record.map fun _ => true } := by
  obtain ⟨frame, log, -⟩ := t.releaseIfClaims_spec
  unfold State.closed
  rw [State.roundView_setRound]
  have record : (t.releaseIfClaims.log.comp.map (fun c => (⟨c.record.headed t.releaseIfClaims o, true⟩ : Composition))).map
      (·.complete) = (t.log.comp.map (·.complete)).map fun _ => true := by
    rw [log.records.comp]
    cases t.log.comp <;> rfl
  have opened : t.releaseIfClaims.seq.attemptOpen = t.seq.attemptOpen := congrArg _ (frame.seq (by decide))
  exact congrArg₂ (fun a b => (⟨.closing, a, none, false, false, b⟩ : RoundView)) opened record

/-- The round ends, once no attempt is open and while its record is under composition (R94, R95). -/
theorem Rounds.closes (h : Traced s t) (active : t.seq.state ≠ .closing)
    (ended : s.RoundFits → t.roundView.opened = false ∧ t.roundView.record = some false) (o) : Rounds s (t.closeRound o) := by
  have released := (Traced.refl t).releaseIfClaims
  have state : t.releaseIfClaims.seq.state = t.seq.state := congrArg RoundView.state t.roundView_releaseIfClaims
  have closed : Traced s (t.closed o) := h.trans (Carried.traced
    (((released.toCarried.onSeq _).onVer _ fun k => k.attemptEnded).onLog _) ((Traced.refl _).setRound .closing nofun) fun same =>
      active (state.symm.trans (same.symm.trans (congrArg RoundView.state (t.roundView_closed o)))))
  rw [State.closeRound_eq]
  refine Rounds.recordTaken ⟨closed, fun fits => .of_view (r := .closing) ?_⟩
  obtain ⟨opened, record⟩ := ended fits
  rw [State.roundView_closed, record]
  dsimp only
  rw [opened]
  rfl

/-- A round that may end early has a record under composition and is not CLOSING. -/
theorem RoundState.endable_view {r : RoundState} (h : r.endable = true) : r ≠ .closing ∧ r.view.record = some false := by
  cases r with
  | idle => cases h
  | closing => cases h
  | holdWait => exact ⟨nofun, rfl⟩
  | waiting => exact ⟨nofun, rfl⟩
  | claiming => exact ⟨nofun, rfl⟩
  | running => exact ⟨nofun, rfl⟩
  | suspended => exact ⟨nofun, rfl⟩

theorem Rounds.cutRound (h : Rounds s t) (o) : Rounds s (t.cutRound o) := by
  unfold State.cutRound
  split
  · rename_i endable
    obtain ⟨active, record⟩ := RoundState.endable_view endable
    have view := t.roundView_endAttempt .cut
    have state : (t.endAttempt .cut).seq.state = t.seq.state := congrArg RoundView.state view
    refine h.trans (Rounds.closes ((Traced.refl t).endAttempt .cut) (by rw [state]; exact active) (fun fits => ?_) o)
    rw [view]
    exact ⟨rfl, (congrArg RoundView.record (fits.view rfl)).trans record⟩
  · exact h
/-- The suspend limit ends the round (R91). -/
theorem Rounds.abandoned (suspended : t.seq.state = .suspended) (o) : Rounds t (t.closeRound o) :=
  Rounds.closes (.refl t) (by rw [suspended]; nofun) (fun fits => by rw [fits.view suspended]; exact ⟨rfl, rfl⟩) o
end

/-! ### Running a step -/

theorem State.roundView_stickyIf (s : State) (c f) : (s.stickyIf c f).roundView = s.roundView := by
  unfold State.stickyIf
  split <;> rfl
theorem State.roundView_doneAttempt (t : State) : t.doneAttempt.roundView = { t.roundView with
    opened := false, runs := if t.seq.attemptOpen then none else t.roundView.runs, stepTimer := false } := by
  have marked := ((t.endAttempt .done).roundView_stickyIf t.curStep.mark .stepMark).trans (t.roundView_endAttempt .done)
  exact congrArg (fun v : RoundView => { v with stepTimer := false }) marked

/-- A step entered chained stays RUNNING, with its step timer from 0 (R86). -/
theorem Rounds.enterChained {s t : State} (h : Traced s t) (state : t.seq.state = .running)
    (went : s.RoundFits → t.roundView.suspendTimer = false ∧ t.roundView.record = some false) (i) : Rounds s (t.enterChained i) := by
  have opened : Rounds s (((t.openAttempt i).onSeq fun q => { q with stepTimer := .from 0 }).onVer Verifier.runningInBurst) := by
    refine ⟨((h.openAttempt i).onSeq _ rfl rfl rfl).onVer _ fun k => k.runningInBurst, fun fits => .of_view (r := .running) ?_⟩
    obtain ⟨timer, record⟩ := went fits
    have view : (((t.openAttempt i).onSeq fun q => { q with stepTimer := .from 0 }).onVer Verifier.runningInBurst).roundView =
      ⟨t.seq.state, true, some true, true, t.roundView.suspendTimer, t.roundView.record⟩ := rfl
    rw [view, state, timer, record]
    rfl
  exact opened.chainRequest _ _

section
variable {s t : State} (h : Rounds s t)
include h

/-- The verifier of a round in RUNNING stays in a running mode. -/
theorem Rounds.verifierRuns (running : t.seq.state = .running) (f : Verifier → Verifier) (sound : t.ver.Sound → (f t.ver).Sound)
    (mode : (f t.ver).mode.runs = some true) : Rounds s (t.onVer f) := by
  refine h.trans ⟨(Traced.refl t).onVer f sound, fun fits => .of_view (r := .running) ?_⟩
  have view := fits.view running
  rw [← view]
  have runs : t.ver.mode.runs = some true := congrArg RoundView.runs view
  unfold State.roundView
  rw [runs, ← mode]
  rfl

/-- An attempt ends DONE: the round ends, or goes on with a step entered chained or afresh (R85, R86). -/
theorem Rounds.attemptDone (running : t.seq.state = .running) : Rounds s t.attemptDone := by
  have done : Traced s t.doneAttempt := ((h.toTraced.endAttempt _).stickyIf _ _).onSeq _ rfl rfl rfl
  have view := t.roundView_doneAttempt
  have state : t.doneAttempt.seq.state = .running := (congrArg RoundView.state view).trans running
  unfold State.attemptDone
  rw [← State.doneAttempt]
  dsimp only
  split
  · exact Rounds.closes done (by rw [state]; nofun) (fun fits => by rw [view, (h.fits fits).view running]; exact ⟨rfl, rfl⟩) _
  split
  · exact Rounds.enterChained done state (fun fits => by rw [view, (h.fits fits).view running]; exact ⟨rfl, rfl⟩) _
  · refine ⟨done.releaseIfClaims.enterStep _ _, fun fits => State.enterStep_fits ?_ ?_ _ _⟩
    all_goals rw [State.roundView_releaseIfClaims, view, (h.fits fits).view running]
    all_goals rfl
end

end Sys2Proof.Machine
end

section
/-! What samples, stop causes and link states, and the admission unit's answers, keep of a round (R79, R80, R82, R84, R97; R36 to R54). -/

namespace Sys2Proof.Machine

/-! ### Samples (R82, R84, R97) -/

section
variable {s t : State} (h : Rounds s t)
include h

theorem Rounds.burstComplete : Rounds s t.burstComplete := by
  unfold State.burstComplete
  split
  · rename_i inBurst
    have running := inBurst.1
    split
    · have counted := h.calm ((Traced.refl t).onSeq (fun q => { q with repeats := q.repeats - 1 }) rfl rfl rfl) rfl
      dsimp only
      split
      · have pauses := counted.calm ((Traced.refl _).onSeq
          (fun q => { q with phase := .pause, pauseTimer := .from (t.curStep.pauseTime * 1000) }) rfl rfl rfl) rfl
        exact pauses.verifierRuns running _ (fun k => k.pauseBegins) rfl
      · exact counted.verifierRuns running _ (fun k => k.newBurst) rfl
    · refine Rounds.attemptDone (h.trans ⟨(Traced.refl t).onVer _ fun k => k.lastRepetition, fun fits => fits.congr rfl⟩) running
  · exact h
theorem Rounds.sensorLostReport : Rounds s t.sensorLostReport := by
  unfold State.sensorLostReport
  split
  · rename_i inBurst
    exact h.suspend (congrArg RoundState.attempting inBurst.1) _
  · exact h
theorem Rounds.takeSample (x) : Rounds s (t.takeSample x) := by
  unfold State.takeSample
  obtain ⟨sound, mode⟩ :=
    Verifier.takeSample_keeps t.settings.sampleMs t.settings.sensorLimit t.curStep (t.convSet t.curStep) x t.ver
  dsimp only
  generalize t.ver.takeSample t.settings.sampleMs t.settings.sensorLimit t.curStep (t.convSet t.curStep) x = e at *
  have taken : Rounds s (t.onVer fun _ => e.ver) := h.calm ((Traced.refl t).onVer _ sound) (by
    unfold State.roundView
    rw [← mode]
    rfl)
  have told := taken.stickyIf e.sensorAbsent .sensorAbsent
  split
  · exact told
  · exact told.burstComplete
  · exact told.sensorLostReport
theorem Rounds.noReply : Rounds s t.noReply := ((h.onPort _).stickyIf _ _).takeSample _
theorem Rounds.validReply (bytes) : Rounds s (t.validReply bytes) := (h.onPort _).takeSample _
end

/-! ### Stop causes (R45, R79) -/

theorem State.roundView_openAttempt (t : State) (i) : (t.openAttempt i).roundView =
    { t.roundView with opened := true, runs := some false, stepTimer := false } := rfl

/-- The states in which a stop cause is acted on. -/
theorem State.stopReply_cases (t : State) (c : StopCause) : t.stopReply c = .discards
    ∨ t.seq.state.attempting = true ∧ ((∃ k, t.stopReply c = .suspends k) ∨ t.stopReply c = .again)
    ∨ t.seq.state = .claiming ∧ t.stopReply c = .waits := by
  unfold State.stopReply
  split
  · rename_i acts
    have attempting : t.seq.state.attempting = true := by rcases acts.2 with e | e <;> rw [e] <;> rfl
    cases c with
    | shed => exact .inr (.inl ⟨attempting, .inr rfl⟩)
    | routeTaken => exact .inr (.inl ⟨attempting, .inl ⟨_, rfl⟩⟩)
    | leaseLost => exact .inr (.inl ⟨attempting, .inl ⟨_, rfl⟩⟩)
    | linkLost =>
      dsimp only
      split
      · rename_i claiming
        exact .inr (.inr ⟨claiming, rfl⟩)
      · exact .inr (.inl ⟨attempting, .inl ⟨_, rfl⟩⟩)
  · exact .inl rfl

section
variable {s t : State} (h : Rounds s t)
include h

/-- A round whose attempt is shed enters its step again (R79). -/
theorem Rounds.standAgain (active : t.seq.state.attempting = true) (i) :
    Rounds s ((t.haltAttempt .shed).openAttempt i).standAgain := by
  refine h.trans ⟨(((Traced.refl t).haltAttempt _).openAttempt i).standAgain, fun fits => ?_⟩
  have view : ((t.haltAttempt .shed).openAttempt i).roundView = ⟨t.seq.state, true, some false, false, false, some false⟩ := by
    rw [State.roundView_openAttempt, fits.halted active]
  unfold State.standAgain
  split
  · exact .of_view (r := .holdWait) (by rw [State.roundView_setRound, view]; rfl)
  split
  · exact .of_view (r := .running) (by rw [State.roundView_enterRunning, view]; rfl)
  · exact .of_view (r := .waiting) (by rw [State.roundView_setRound, view]; rfl)
theorem Rounds.stopReported (c) : Rounds s (t.stopReported (t.stopReply c)) := by
  rcases t.stopReply_cases c with e | ⟨active, ⟨k, e⟩ | e⟩ | ⟨claiming, e⟩ <;> rw [e]
  · exact h
  · have state : (t.haltAttempt k.outcome).seq.state = t.seq.state := congrArg RoundView.state (t.roundView_haltAttempt _)
    refine h.trans ⟨((Traced.refl t).haltAttempt _).enterSuspended ?_ k, fun fits => .of_view (r := .suspended) ?_⟩
    · rw [state]
      intro suspended
      rw [suspended] at active
      cases active
    · unfold State.stopReported
      rw [State.roundView_enterSuspended, fits.halted active]
      rfl
  · exact h.standAgain active _
  · exact h.stands (.inr (.inr claiming)) (.inr (.inl rfl))
theorem Rounds.stopAnswered (a) : Rounds s (t.stopAnswered a) := by
  unfold State.stopAnswered
  split
  · exact h
  · exact h
  · exact h.releaseIfClaims
  · split <;> [exact h.releaseRequest; exact (h.receiveRequest _ _).takeRequest]
theorem Rounds.stopRun (c) : Rounds s (t.stopRun c) :=
  (((((h.stopReported c).stickyIf _ _).placeOp _).enter _).placeOwn _).stopAnswered _
theorem Rounds.actVerdict (v) : Rounds s (t.actVerdict v) := by
  unfold State.actVerdict
  split
  · split <;> [exact h.stopRun _; exact h]
  · exact h
end

/-! ### Claims, outcomes and results (R22, R32, R33, R36 to R41) -/

section
variable {s t : State} (h : Rounds s t)
include h

theorem Rounds.claim : Rounds s t.claim := (((h.updateOwn _).placeAnnounce _ _).enter _).reportClaiming
theorem Rounds.stayWaiting : Rounds s t.stayWaiting := by
  unfold State.stayWaiting; split <;> [exact h; exact h.placeAnnounce _ _]
theorem Rounds.yieldStep : Rounds s t.yieldStep := (((h.updateOwn _).placeAnnounce _ _).enter _).reportWaiting
theorem Rounds.runPending : Rounds s t.runPending := ((h.placeAnnounce _ _).enter _).reportClaiming
theorem Rounds.grant : Rounds s t.grant := ((h.updateOwn _).enter _).onAdm _
theorem Rounds.lapseRunPending : Rounds s t.lapseRunPending := (((h.placeOwn _).updateOwn _).enter _).reportWaiting
theorem Rounds.notice (rs) : Rounds s (t.notice rs) := by
  unfold State.notice; split <;> [exact h.requestEval _; exact h]
theorem Rounds.hallResult (rs) : Rounds s (t.hallResult rs) := (h.notice _).actVerdict _
theorem Rounds.ownResult (rs) : Rounds s (t.ownResult rs) := h.opDone.actVerdict _
theorem Rounds.updateResult (st rs) : Rounds s (t.updateResult st rs) := by
  unfold State.updateResult
  dsimp only
  split
  · split <;> [exact h.opDone.stopRun _; exact (h.opDone.onAdm _).reportRunning]
  · exact h.opDone.actVerdict _
theorem Rounds.actOutcome (o settle) : Rounds s (t.actOutcome o settle) := by
  unfold State.actOutcome
  split
  · exact h
  · exact h
  · split <;> [exact h.claim; exact h.stayWaiting]
  · split
    · split <;> [exact h.runPending; exact h]
    · exact h.yieldStep
  · split <;> [exact h; exact h.yieldStep]
theorem Rounds.requestWanted : Rounds s t.requestWanted := by
  unfold State.requestWanted; split <;> [exact (h.onAdm _).requestEval _; exact h]
theorem Rounds.outcome (o) : Rounds s (t.outcome o) := by
  unfold State.outcome
  have done := (h.onAdm fun a => { a with evalReq := none }).opDone
  dsimp only
  split
  · split <;> [exact (done.actOutcome _ _).requestWanted; exact done.requestWanted]
  · exact done.requestWanted
theorem Rounds.ageStep : Rounds s t.ageStep := by
  have raised := (h.onAdm fun a => { a with urgency := a.urgency + 1 }).updateOwn .waiting
  unfold State.ageStep
  dsimp only
  split <;> [exact (raised.placeAnnounce _ _).requestEval _; exact raised.requestEval _]

/-! ### Product holds (R52 to R54) -/

theorem Rounds.placeHold (i r) : Rounds s (t.placeHold i r) := h.placeProduct _ _
theorem Rounds.judgeHold (i) : Rounds s (t.judgeHold i) := by
  unfold State.judgeHold
  split
  · exact h
  split
  · split
    · exact ((h.placeOp _).onAdm _).placeHold _ _
    · split <;> [exact ((h.placeOp _).onAdm _).placeProduct _ _; exact h]
  · exact h
theorem Rounds.judgeHolds : Rounds s t.judgeHolds :=
  List.foldlRecOn (motive := fun u : State => Rounds s u) allFour State.judgeHold h fun _ k i _ => k.judgeHold i
theorem Rounds.dropHold (i) : Rounds s (t.dropHold i) := by
  unfold State.dropHold
  split
  · split <;> [exact (h.placeOp _).onAdm _; exact h.onAdm _]
  · exact h

/-! ### Deliveries (R37, R38, R41, R43, R44, R53, R160, R169) -/

theorem Rounds.ownDelivered (c) : Rounds s (t.ownDelivered c) := by
  have kept := h.onAdm fun a => { a with last := some c }
  unfold State.ownDelivered
  dsimp only
  split
  · exact kept.onAdm _
  · exact kept.grant
  · exact kept.onAdm _
  · exact kept.onAdm _
  · exact kept
theorem Rounds.productDelivered (i c) : Rounds s (t.productDelivered i c) := by
  unfold State.productDelivered; split <;> [exact h.onAdm _; exact h]
theorem Rounds.fragmentDelivered : Rounds s t.fragmentDelivered := by
  unfold State.fragmentDelivered
  split
  · exact h
  · split <;> [exact h.onLog _ rfl; exact (h.onLog _ rfl).recordTaken]

/-! ### Link states (R48, R49, R80, R143 to R148) -/

theorem Rounds.admReticent : Rounds s t.admReticent := by
  unfold State.admReticent; split <;> [exact h.yieldStep; exact h]
theorem Rounds.admEngaged : Rounds s t.admEngaged := by
  unfold State.admEngaged; split <;> [exact h.requestEval _; exact h]
theorem Rounds.stepLetGo : Rounds s t.stepLetGo := by
  unfold State.stepLetGo
  split <;> [exact h.stopRun _; exact h; exact (h.placeOp _).enter _]
theorem Rounds.admDetached : Rounds s t.admDetached := by
  rw [State.admDetached_eq]
  have dropped := List.foldlRecOn (motive := fun u : State => Rounds s u) allFour State.dropHold h.stepLetGo fun _ k i _ => k.dropHold i
  exact (List.foldlRecOn (motive := fun u : State => Rounds s u) allFour _ (dropped.placeOwn none)
    fun _ k i _ => k.placeProduct i none).onAdm _
theorem Rounds.seqDetached : Rounds s t.seqDetached := by
  unfold State.seqDetached
  split
  · rename_i claiming
    exact h.stands (.inr (.inr claiming)) (.inr (.inl rfl))
  · rename_i running
    split <;> [exact h; exact h.suspend (congrArg RoundState.attempting running) _]
  · exact h
theorem Rounds.seqBarred : Rounds s t.seqBarred := by
  have emptied := h.calm ((Traced.refl t).onSeq (fun q => { q with pendingSet := Vector.replicate 4 none }) rfl rfl rfl) rfl
  unfold State.seqBarred
  dsimp only
  split
  · rename_i state
    exact emptied.suspend (congrArg RoundState.attempting state) _
  · rename_i state
    exact emptied.suspend (congrArg RoundState.attempting state) _
  · rename_i state
    exact emptied.suspend (congrArg RoundState.attempting state) _
  · rename_i state
    exact emptied.suspend (congrArg RoundState.attempting state) _
  · exact emptied
theorem Rounds.enterDetached : Rounds s t.enterDetached := ((h.onLink _ id).seqDetached).admDetached
theorem Rounds.enterBarred : Rounds s t.enterBarred := (((h.onLink _ id).onTx _ rfl rfl id id).seqBarred).admDetached
theorem Rounds.judgeLink : Rounds s t.judgeLink := by
  unfold State.judgeLink
  split
  · exact h.enterDetached
  split
  · exact ((h.onLink _ id).sticky _).admReticent
  split
  · exact (h.onLink _ id).admEngaged
  · exact h
theorem Rounds.moveCounts (tec rec') : Rounds s (t.moveCounts tec rec') := by
  unfold State.moveCounts; split <;> [exact h; exact (h.onLink _ id).judgeLink]
theorem Rounds.tecMove (o) : Rounds s (t.tecMove o) := by
  unfold State.tecMove
  split
  · exact h.moveCounts _ _
  · exact h.moveCounts _ _
  · exact h.moveCounts _ _
  · exact h
theorem Rounds.frameOver (a) : Rounds s (t.frameOver a) := h.onLink _ id
theorem Rounds.checkFailed (a) : Rounds s (t.checkFailed a) := by
  have ended := h.frameOver a
  unfold State.checkFailed
  dsimp only
  split
  · exact ended.moveCounts _ _
  · exact ended.moveCounts _ _
  · exact ended.onLink _ id
  · exact ended

/-! ### Frames of other stations (R140, R147, R149 to R154) -/

theorem Rounds.command (c) : Rounds s (t.command c) := by
  unfold State.command
  split
  · exact h.roundRequest _ _
  · exact h.cutRound _
  · exact h.resumeRound _
  · exact h.makeStatus
theorem Rounds.enqueueIf (o) : Rounds s (t.enqueueIf o) := by
  unfold State.enqueueIf; split <;> [exact h.enqueue _; exact h]
theorem Rounds.handOn (k f) : Rounds s (t.handOn k f) := by
  unfold State.handOn
  split
  · exact h.enqueueIf _
  · exact h.enqueueIf _
  · exact h.enqueueIf _
  · exact h.enqueueIf _
  · split <;> [exact h.command _; exact h]
  · exact h
theorem Rounds.deliveredFrame (k f) : Rounds s (t.deliveredFrame k f) := by
  unfold State.deliveredFrame
  split
  · exact h.enterBarred
  split
  · have lowered : Rounds s t.recDown := h.moveCounts _ _
    dsimp only
    split <;> [exact lowered.handOn _ _; exact lowered]
  · exact h
theorem Rounds.receiveFrame (k f) : Rounds s (t.receiveFrame k f) := by
  unfold State.receiveFrame
  split
  · split
    · dsimp only
      split <;> [exact (h.frameOver _).deliveredFrame _ _; exact h.frameOver _]
    · exact h.checkFailed _
  · exact h
end

end Sys2Proof.Machine
end

section
/-! Every command keeps the round's agreement and the verifier's bounds (R69 to R112, R166), and makes a STATUS at each change of round
state (R74, R89, R172). -/

namespace Sys2Proof.Machine

/-! ### Outcomes of own copies (R160) -/

/-- The current delivery of a STATUS empties its slot: it was not marked as replaced, so that it is no STATUS awaited. -/
theorem Rounds.statusDelivered {t : State} (copy : t.tx.copyFrom = some .status) (clear : t.tx.marks.get .status = false) :
    Rounds t ((t.copyDone .status).currentDelivery .status) :=
  ⟨⟨⟨id, fun _ => rfl, id⟩, fun stamped => absurd ((stamped.marked copy).symm.trans clear) nofun, fun moved => absurd rfl moved⟩,
    fun fits => fits.congr rfl⟩

section
variable {s t : State} (h : Rounds s t)
include h

theorem Rounds.copyOver : Rounds s (t.onTx fun x => { x with copyFrom := none }) := h.onTx _ rfl rfl nofun id
theorem Rounds.copyDone (slot) : Rounds s (t.copyDone slot) := by
  cases slot with
  | own => exact h.copyOver
  | product i => exact h.copyOver
  | status => exact h.copyOver.onTx _ rfl rfl id id
  | stream => exact h.copyOver.onTx _ rfl rfl id id
theorem Rounds.currentDelivery {slot : SlotId} (other : slot ≠ .status) : Rounds s (t.currentDelivery slot) := by
  cases slot with
  | own => unfold State.currentDelivery; dsimp only; split <;> [exact (h.onTx _ rfl rfl id id).ownDelivered _; exact h]
  | product i => unfold State.currentDelivery; dsimp only; split <;> [exact (h.onTx _ rfl rfl id id).productDelivered _ _; exact h]
  | status => exact absurd rfl other
  | stream => exact h.fragmentDelivered
theorem Rounds.handOutcome (o) : Rounds s (t.handOutcome o) := by
  cases copy : t.tx.copyFrom with
  | none => unfold State.handOutcome; rw [copy]; exact h
  | some slot =>
    cases o with
    | delivered =>
      rw [State.handOutcome_delivered copy]
      split
      · exact h.copyDone slot
      · rename_i clear
        by_cases status : slot = .status
        · subst status
          exact h.trans (.statusDelivered copy (Bool.not_eq_true _ ▸ clear))
        · exact (h.copyDone slot).currentDelivery status
    | rejected => rw [State.handOutcome_failed copy (.inl rfl)]; exact h.copyOver
    | unanswered => rw [State.handOutcome_failed copy (.inr rfl)]; exact h.copyOver
    | held => rw [State.handOutcome_held copy]; exact h.onTx _ rfl rfl nofun id

/-! ### The list controller and the inputs -/

theorem Rounds.carryAnnouncement (a) : Rounds s (t.carryAnnouncement a) := by
  unfold State.carryAnnouncement
  split <;> [exact h.dequeue.hallResult _; exact (((h.onBoard _).stickyIf _ _).stickyIf _ _).dequeue.hallResult _]
theorem Rounds.carryRelease (o r w) : Rounds s (t.carryRelease o r w) := by
  unfold State.carryRelease
  dsimp only
  split <;> [exact h.dequeue.hallResult _; exact (h.onBoard _).dequeue.hallResult _]
theorem Rounds.carryInhibit (v w) : Rounds s (t.carryInhibit v w) := ((h.onBoard _).sticky _).dequeue.hallResult _
theorem Rounds.carryInsert (r p k st) : Rounds s (t.carryInsert r p k st) := ((h.onBoard _).stickyIf _ _).dequeue.ownResult _
theorem Rounds.carryUpdate (r p k st) : Rounds s (t.carryUpdate r p k st) := ((h.onBoard _).stickyIf _ _).dequeue.updateResult _ _
theorem Rounds.carryRemove (r rs) : Rounds s (t.carryRemove r rs) := (h.onBoard _).dequeue.ownResult _
theorem Rounds.carryEvaluate : Rounds s t.carryEvaluate := (h.dequeue.outcome _).actVerdict _
theorem Rounds.confirmEdge : Rounds s t.confirmEdge := by
  unfold State.confirmEdge
  split
  · rename_i holds
    exact h.proceed holds
  · exact h.resumeRound _
  · exact h
theorem Rounds.stopActive : Rounds s t.stopActive :=
  ((h.calm ((Traced.refl t).onSeq (fun q => { q with pendingSet := Vector.replicate 4 none }) rfl rfl rfl) rfl).stickyIf _ _).cutRound _
end

/-! ### Every command -/

/-- What a command makes of a state, up to what is then offered and driven: where it first sets the link controller anew, its effect on
the round starts from the state after that. -/
structure RoundEffect (s v u : State) : Prop where
  seq : v.seq = s.seq
  ver : v.ver = s.ver
  comp : v.log.comp = s.log.comp
  status : v.tx.status = s.tx.status
  time : v.tx.statusSuspend = s.tx.statusSuspend
  medium : s.link.medium = .busy → v.link.medium = .busy ∨ u = v
  rounds : Rounds v u

theorem exec_rounds (c : Instr) (s : State) (fresh : ¬ startsAfresh c) : ∃ v u, exec c s = done u ∧ RoundEffect s v u := by
  have goes {u : State} (e : exec c s = done u) (r : Rounds s u) : ∃ v u, exec c s = done u ∧ RoundEffect s v u :=
    ⟨s, u, e, rfl, rfl, rfl, rfl, rfl, .inl, r⟩
  have h := Rounds.refl s
  cases c with
  | powerUp => exact absurd (.inl rfl) fresh
  | resetRisingEdge => exact absurd (.inr (.inl rfl)) fresh
  | startUpComplete => exact absurd (.inr (.inr rfl)) fresh
  | resetFallingEdge => refine goes rfl ?_; split <;> [exact (h.onPort _).onLoader _; exact h]
  | imageReadEnd bytes => refine goes rfl ?_; split <;> [exact h.onLoader _; exact h]
  | uptimeTick => refine goes rfl ?_; split <;> [exact h.onLoader _; exact h]
  | inputLevelChange x active => exact goes rfl (h.onPort _)
  | reqRisingEdge i => refine goes rfl ?_; split <;> [exact (h.onPort _).roundRequest _ _; exact h]
  | confirmRisingEdge => refine goes rfl ?_; split <;> [exact (h.onPort _).confirmEdge; exact h]
  | stopChange =>
    refine goes rfl ?_
    split
    · dsimp only
      split <;> [exact (h.onPort _).stopActive; exact h.onPort _]
    · exact h
  | prodLineChange i => refine goes rfl ?_; split <;> [exact (h.onPort _).judgeHolds; exact h]
  | samplePeriodExpiry => refine goes rfl ?_; split <;> [exact h.onPort _; exact h]
  | sampleReply bytes =>
    refine goes rfl ?_
    split
    · split
      · split <;> [exact h.validReply _; exact h]
      · exact h.noReply
    · exact h
  | replyTimeout => refine goes rfl ?_; split <;> [exact h.noReply; exact h]
  | applyAnnouncementCip =>
    refine goes rfl ?_
    split
    · split <;> [exact h.carryAnnouncement _; exact h]
    · exact h
  | applyAnnouncementProduct =>
    refine goes rfl ?_
    split
    · split <;> [exact h.carryAnnouncement _; exact h]
    · exact h
  | applyRelease => refine goes rfl ?_; split <;> [exact h.carryRelease _ _ _; exact h]
  | inhibitOperation => refine goes rfl ?_; split <;> [exact h.carryInhibit _ _; exact h]
  | clearOperation => refine goes rfl ?_; split <;> [exact h.carryInhibit _ _; exact h]
  | ownInsert => refine goes rfl ?_; split <;> [exact h.carryInsert _ _ _ _; exact h]
  | ownUpdate => refine goes rfl ?_; split <;> [exact h.carryUpdate _ _ _ _; exact h]
  | ownRemove => refine goes rfl ?_; split <;> [exact h.carryRemove _ _; exact h]
  | evaluate => refine goes rfl ?_; split <;> [exact h.carryEvaluate; exact h]
  | entryExpiry n =>
    refine goes rfl ?_
    split
    · split <;> [exact ((h.onBoard _).stickyIf _ _).hallResult _; exact h]
    · exact h
  | incompleteTimerExpiry r => refine goes rfl ?_; split <;> [exact (h.onBoard _).notice _; exact h]
  | agingExpiry =>
    refine goes rfl ?_
    split
    · dsimp only
      split <;> [exact (h.onAdm _).ageStep; exact h.onAdm _]
    · exact h
  | learningExpiry => refine goes rfl ?_; split <;> [exact (h.onAdm _).admEngaged; exact h]
  | settleExpiry =>
    refine goes rfl ?_
    split
    · dsimp only
      split <;> [exact (h.onAdm _).requestEval _; exact (h.onAdm _).yieldStep]
    · exact h
  | lapseExpiry =>
    refine goes rfl ?_
    split
    · split
      · exact (h.sticky _).lapseRunPending.requestEval _
      · exact (h.sticky _).yieldStep.requestEval _
      · exact h
    · exact h
  | refreshExpiry =>
    refine goes rfl ?_
    split
    · dsimp only
      split
      · exact (h.onAdm _).placeAnnounce _ _
      · exact (h.onAdm _).placeAnnounce _ _
      · exact h
    · exact h
  | guardExpiry => refine goes rfl ?_; split <;> [exact h.stopRun _; exact h]
  | productRefreshExpiry i =>
    refine goes rfl ?_
    split
    · split <;> [exact (h.onAdm _).placeHold _ _; exact h]
    · exact h
  | stepTimerExpiry =>
    refine goes rfl ?_
    split
    · rename_i due
      exact h.suspend (congrArg RoundState.attempting due.2) _
    · exact h
  | pauseTimerExpiry =>
    refine goes rfl ?_
    split
    · rename_i out
      have ended := h.calm ((Traced.refl s).onSeq (fun q => { q with phase := .burst, pauseTimer := .stopped }) rfl rfl rfl) rfl
      exact ended.verifierRuns out.2.1 _ (fun k => k.pauseEnds) rfl
    · exact h
  | suspendTimerExpiry =>
    refine goes rfl ?_
    split
    · rename_i out
      exact .abandoned out.2 _
    · exact h
  | announce f => exact goes rfl (h.receiveFrame _ _)
  | release f => exact goes rfl (h.receiveFrame _ _)
  | inhibit f => exact goes rfl (h.receiveFrame _ _)
  | clear f => exact goes rfl (h.receiveFrame _ _)
  | request f => exact goes rfl (h.receiveFrame _ _)
  | abort f => exact goes rfl (h.receiveFrame _ _)
  | resume f => exact goes rfl (h.receiveFrame _ _)
  | report f => exact goes rfl (h.receiveFrame _ _)
  | status f => exact goes rfl (h.receiveFrame _ _)
  | record f => exact goes rfl (h.receiveFrame _ _)
  | unknownKind k f => exact goes rfl (h.receiveFrame _ _)
  | commandNotAddressed f => exact goes rfl (h.receiveFrame _ _)
  | receivedFrameCheckFailed => refine goes rfl ?_; split <;> [exact h.checkFailed _; exact h]
  | frameBreakOff => refine goes rfl ?_; split <;> [exact h.checkFailed _; exact h]
  | arbitrationLost => refine goes rfl ?_; split <;> [exact (h.onLink _ id).copyOver; exact h]
  | frameAbandon => refine goes rfl ?_; split <;> [exact (h.onLink _ id).copyOver.moveCounts _ _; exact h]
  | ownFrameEnd k => refine goes rfl ?_; split <;> [exact ((h.frameOver _).tecMove _).handOutcome _; exact h]
  | mediumIdle =>
    by_cases acts : s.isRunning = true ∧ s.link.role = .none ∧ s.link.state ≠ .barred
    · exact ⟨s.onLink fun l => { l with medium := .idle }, _, congrArg done (if_pos acts), rfl, rfl, rfl, rfl, rfl,
        fun _ => .inr rfl, .refl _⟩
    · exact goes (congrArg done (if_neg acts)) h
  | peerStartField => refine goes rfl ?_; split <;> [exact h.onLink _ fun _ => rfl; exact h]
  | holdBackExpiry => refine goes rfl ?_; split <;> [exact h.onTx _ rfl rfl id id; exact h]
  | rejoin =>
    by_cases acts : s.link.quiet.due Config.rejoinQuiet = true ∧ s.link.state = .detached
    · exact ⟨s.rejoined, _, congrArg done (if_pos acts), rfl, rfl, rfl, rfl, rfl, fun _ => .inl rfl,
        (Rounds.refl _).takeRequest.judgeHolds⟩
    · exact goes (congrArg done (if_neg acts)) h
  | statusPeriodExpiry => refine goes rfl ?_; split <;> [exact (h.onLog _ rfl).makeStatus; exact h]

/-! ### Every step -/

/-- What a state keeps of a round from the one before it: its agreement and the verifier's bounds. -/
def State.KeepsRound (s t : State) : Prop := (s.RoundFits → t.RoundFits) ∧ (s.ver.Sound → t.ver.Sound)

/-- A node in reset or start-up state has no round. -/
theorem State.keepsRound_of_idle {s t : State} (view : t.roundView = RoundState.idle.view) (ver : t.ver = .start) : s.KeepsRound t :=
  ⟨fun _ => .of_view view, fun _ => by rw [ver]; exact ⟨Nat.le_refl _, rfl, Nat.two_pow_pos 40⟩⟩
theorem State.roundView_started (s : State) (d : Loaded) : (s.started d).roundView = RoundState.idle.view := by
  obtain ⟨-, comp, -⟩ := startedLog_records d
  exact congrArg (fun k : Option Composition => (⟨.idle, false, none, false, false, k.map (·.complete)⟩ : RoundView)) comp
theorem State.KeepsRound.finish {s u : State} (h : s.KeepsRound u) : s.KeepsRound u.finish := by
  obtain ⟨fits, sound⟩ := h
  refine ⟨fun k => (fits k).congr (State.roundView_congr u.finish_seq u.finish_ver (congrArg Log.comp u.finish_log)), ?_⟩
  rw [State.finish_ver]
  exact sound
theorem RoundEffect.keepsRound {s v u : State} (h : RoundEffect s v u) : s.KeepsRound u := by
  refine ⟨fun fits => h.rounds.fits (fits.congr (State.roundView_congr h.seq h.ver h.comp)), fun sound => h.rounds.sound ?_⟩
  rw [h.ver]
  exact sound

theorem exec_keepsRound {c : Instr} {s t : State} (e : exec c s = .next t) : s.KeepsRound t := by
  by_cases fresh : startsAfresh c
  · have idle : ∃ u, exec c s = done u ∧ s.KeepsRound u := by
      rcases fresh with rfl | rfl | rfl
      · exact ⟨_, rfl, State.keepsRound_of_idle rfl rfl⟩
      · refine ⟨_, rfl, ?_⟩; split <;> [exact State.keepsRound_of_idle rfl rfl; exact ⟨id, id⟩]
      · refine ⟨_, rfl, ?_⟩
        split
        · obtain ⟨fits, sound⟩ := State.keepsRound_of_idle (s := s) (s.roundView_started (loadImage s.loader.image)) rfl
          have holds := (Rounds.refl (s.started (loadImage s.loader.image))).judgeHolds
          exact ⟨fun k => holds.fits (fits k), fun k => holds.sound (sound k)⟩
        · exact ⟨id, id⟩
    obtain ⟨u, hu, kept⟩ := idle
    rw [hu] at e
    rw [done_next e]
    exact kept.finish
  · obtain ⟨v, u, hu, effect⟩ := exec_rounds c s fresh
    rw [hu] at e
    rw [done_next e]
    exact effect.keepsRound.finish

theorem Timer.up_on (n : Nat) (t : Timer) : (t.up n).on = t.on := by
  unfold Timer.up
  split <;> [(rename_i on; exact on.symm); rfl]
theorem Verifier.tick_mode (v : Verifier) : v.tick.mode = v.mode := by
  unfold Verifier.tick
  split <;> [rfl; (split <;> rfl)]

/-- A millisecond moves the timers that run, and stops or starts none (R81, R91, R115). -/
theorem State.tick_keepsRound (s : State) : s.KeepsRound s.tick := by
  unfold State.tick
  split
  · refine ⟨fun fits => fits.congr ?_, fun sound => sound.tick⟩
    have step : s.tickRunning.seq.stepTimer.on = s.seq.stepTimer.on := Timer.up_on _ _
    have suspend : s.tickRunning.seq.suspendTimer.on = s.seq.suspendTimer.on := Timer.up_on _ _
    have mode : s.tickRunning.ver.mode = s.ver.mode := s.ver.tick_mode
    unfold State.roundView
    rw [step, suspend, mode]
    rfl
  · exact ⟨fun fits => fits.congr rfl, id⟩

/-! ### The STATUS offered -/

theorem State.finish_statusSuspend (s : State) : s.finish.tx.statusSuspend = s.tx.statusSuspend := by
  unfold State.finish State.offer; split <;> [(split <;> rfl); rfl]

section
variable {c : Instr} {s t : State}

/-- A change of round state leaves a STATUS of the new one in the slot, marked where a copy of an earlier one is on the medium: on a busy
medium nothing is offered over it (R74, R156). -/
theorem exec_stamped (e : exec c s = .next t) (fresh : ¬ startsAfresh c) (moved : t.seq.state ≠ s.seq.state) : ∃ u : State, u.Stamped
    ∧ t.seq = u.seq ∧ t.tx.status = u.tx.status ∧ t.tx.statusSuspend = u.tx.statusSuspend
    ∧ (s.link.medium = .busy → t.tx = u.tx) := by
  obtain ⟨v, u, hu, effect⟩ := exec_rounds c s fresh
  rw [hu] at e
  obtain rfl := done_next e
  rw [State.finish_seq] at moved
  have changed : u.seq.state ≠ v.seq.state := by rw [effect.seq]; exact moved
  refine ⟨u, effect.rounds.changed changed, u.finish_seq, u.finish_status, u.finish_statusSuspend,
    fun busy => u.finish_tx_busy (effect.rounds.medium ?_)⟩
  rcases effect.medium busy with medium | rfl
  · exact medium
  · exact absurd rfl changed

theorem exec_statusSlot (e : exec c s = .next t) (fresh : ¬ startsAfresh c)
    (slot : s.tx.status.isSome = s.tx.statusSuspend.isSome) : t.tx.status.isSome = t.tx.statusSuspend.isSome := by
  obtain ⟨v, u, hu, effect⟩ := exec_rounds c s fresh
  rw [hu] at e
  obtain rfl := done_next e
  rw [← effect.status, ← effect.time] at slot
  rw [State.finish_status, State.finish_statusSuspend]
  exact effect.rounds.slot slot
end

end Sys2Proof.Machine

open Sys2Proof Sys2Proof.Machine

/-- Settles O12: what the round rests on is, in a fitting state, the view of its round state, and every operation that changes the state
makes the view of the new one; the verifier's bounds are kept by each of its changes. -/
theorem roundAndVerifierAgreeKept : Obligations.RoundAndVerifierAgreeKept := by
  refine ⟨fun s t fits h => ?_, fun s t sound h => ?_⟩
  · exact step_keeps (P := State.RoundFits) (fun s rest k => k.congr rfl) (fun _ _ _ k e => (exec_keepsRound e).1 k)
      (fun s k => s.tick_keepsRound.finish.1 k) fits h
  · exact step_keeps (P := fun s => s.ver.Sound) (fun _ _ k => k) (fun _ _ _ k e => (exec_keepsRound e).2 k)
      (fun s k => s.tick_keepsRound.finish.2 k) sound h

/-- Settles O20: a change of round state leaves a STATUS made at that change, and nothing that a command does after it takes the slot. -/
theorem statusAtEachRoundChange : Obligations.StatusAtEachRoundChange := by
  refine ⟨fun c s t e fresh moved => ?_, fun c s t e fresh slot => exec_statusSlot e fresh slot⟩
  obtain ⟨u, ⟨⟨bytes, placed, length, state, cause⟩, time, began, marked⟩, seq, status, suspend, tx⟩ := exec_stamped e fresh moved
  rw [status, suspend, seq]
  refine ⟨⟨bytes, placed, length, state⟩, fun busy _ copy => ?_, time, fun suspended => ⟨?_, bytes, placed, cause suspended⟩⟩
  · rw [tx busy] at copy ⊢
    exact marked copy
  · rw [time, began suspended]

end

section
/-! The whole-number rules of the verifier (R100, R101, R103), and what it computes from a sample (R97, R100 to R102). -/

namespace Sys2Proof.Machine

/-! ### Rounding -/

/-- A quotient that its clamp leaves alone lies within one divisor of the dividend. -/
theorem clampedQuotient_bounds {n d top : Nat} (pos : 0 < d) (below : min (n / d) top < top) :
    min (n / d) top * d ≤ n ∧ n < (min (n / d) top + 1) * d := by
  have unclamped : min (n / d) top = n / d := Nat.min_eq_left (by omega)
  rw [unclamped]
  exact ⟨Nat.div_mul_le_self n d, Nat.lt_mul_of_div_lt (Nat.lt_succ_self _) pos⟩

/-- D is the signed sum of R100, which stays positive in the ranges of α and Tr. -/
theorem compensationDivisor_range {alpha tr : Nat} (ha : alpha ≤ 30) (ht : tr ≤ 1500) :
    (compensationDivisor alpha tr : Int) = 10000 + (alpha : Int) * ((tr : Int) - 250)
    ∧ 2500 ≤ compensationDivisor alpha tr ∧ compensationDivisor alpha tr ≤ 47500 := by
  have spread : (alpha : Int) * ((tr : Int) - 250) = alpha * tr - alpha * 250 := Int.mul_sub ..
  have low : (0 : Int) ≤ alpha * tr := by positivity
  have high : (alpha : Int) * (tr - 250) ≤ 30 * 1250 := by
    calc (alpha : Int) * (tr - 250) ≤ alpha * 1250 := Int.mul_le_mul_of_nonneg_left (by omega) (by omega)
      _ ≤ 30 * 1250 := by omega
  unfold compensationDivisor
  omega

/-- A divisor of 10000 or more does not raise κ. -/
theorem kappa25Of_le {alpha tr kappa : Nat} (big : 10000 ≤ compensationDivisor alpha tr) : kappa25Of alpha tr kappa ≤ kappa := by
  unfold kappa25Of
  generalize compensationDivisor alpha tr = d at *
  have grows : kappa * 10000 ≤ kappa * d := Nat.mul_le_mul_left kappa big
  have quotient : (kappa * 10000 + d / 2) / d < kappa + 1 := by
    rw [Nat.div_lt_iff_lt_mul (by omega), Nat.add_mul]
    omega
  exact (Nat.min_le_left _ _).trans (Nat.le_of_lt_succ quotient)

theorem kappa25Of_zero {tr kappa : Nat} (h : kappa ≤ 65535) : kappa25Of 0 tr kappa = kappa := by
  have divisor : compensationDivisor 0 tr = 10000 := by simp [compensationDivisor]
  unfold kappa25Of
  rw [divisor]
  dsimp only
  omega

/-! ### The weight -/

section
variable (st : Step) (tr : Nat)

theorem weight_of_span (h : 0 < st.span) : weight st tr = min (16 + 16 * (tr - st.tmin) / st.span) 32 := if_neg (by omega)
theorem weight_of_no_span (h : st.span = 0) : weight st tr = 16 := if_pos h
theorem weight_range : 16 ≤ weight st tr ∧ weight st tr ≤ 32 := by
  rcases Nat.eq_zero_or_pos st.span with flat | span
  · rw [weight_of_no_span st tr flat]; decide
  · rw [weight_of_span st tr span]
    exact ⟨Nat.le_min.2 ⟨Nat.le_add_right 16 _, by decide⟩, Nat.min_le_right _ _⟩
/-- At Tmin + span and above the weight is the highest. -/
theorem weight_top (span : 0 < st.span) (hot : st.tmin + st.span ≤ tr) : weight st tr = 32 := by
  have sixteenths : 16 ≤ 16 * (tr - st.tmin) / st.span := by
    rw [Nat.le_div_iff_mul_le span]
    omega
  rw [weight_of_span st tr span]
  omega
theorem weight_mono {tr hotter : Nat} (h : tr ≤ hotter) : weight st tr ≤ weight st hotter := by
  rcases Nat.eq_zero_or_pos st.span with flat | span
  · rw [weight_of_no_span st tr flat, weight_of_no_span st hotter flat]
  · have more : 16 * (tr - st.tmin) / st.span ≤ 16 * (hotter - st.tmin) / st.span := Nat.div_le_div_right (by omega)
    rw [weight_of_span st tr span, weight_of_span st hotter span]
    omega
end

/-! ### What is computed from a sample -/

section
variable (st : Step) (set : Option ConvSet) (x : Sample)

/-- A sample has its values computed where the step names a set and κ and Tr are present, and none elsewhere (R100, R101). -/
theorem compute_cases :
    (∃ c k tr, set = some c ∧ x.kappa = some k ∧ x.tr = some tr
      ∧ compute set x = ⟨x, some (kappa25Of c.alpha tr k), some (concOf c.slope (kappa25Of c.alpha tr k))⟩) ∨
    ((set = none ∨ x.kappa = none ∨ x.tr = none) ∧ compute set x = ⟨x, none, none⟩) := by
  obtain ⟨tr, fs, fr, kappa⟩ := x
  cases set with
  | none => exact .inr ⟨.inl rfl, rfl⟩
  | some c =>
    cases kappa with
    | none => exact .inr ⟨.inr (.inl rfl), rfl⟩
    | some k =>
      cases tr with
      | none => exact .inr ⟨.inr (.inr rfl), rfl⟩
      | some t => exact .inl ⟨c, k, t, rfl, rfl, rfl, rfl⟩

@[simp] theorem compute_sample : (compute set x).sample = x := by
  obtain ⟨_, _, _, -, -, -, h⟩ | ⟨-, h⟩ := compute_cases set x <;> rw [h]
theorem compute_kappa25_isSome :
    (compute set x).kappa25.isSome = true ↔ set.isSome = true ∧ x.kappa.isSome = true ∧ x.tr.isSome = true := by
  obtain ⟨_, _, _, hc, hk, ht, h⟩ | ⟨absent, h⟩ := compute_cases set x
  · rw [h]
    simp [hc, hk, ht]
  · rw [h]
    rcases absent with absent | absent | absent <;> simp [absent]
theorem compute_conc_isSome : (compute set x).conc.isSome = (compute set x).kappa25.isSome := by
  obtain ⟨_, _, _, -, -, -, h⟩ | ⟨-, h⟩ := compute_cases set x <;> simp [h]
theorem compute_kappa25 {c : ConvSet} {k tr : Nat} (hc : set = some c) (hk : x.kappa = some k) (ht : x.tr = some tr) :
    (compute set x).kappa25 = some (kappa25Of c.alpha tr k) := by simp [compute, hc, hk, ht]
theorem compute_conc {c : ConvSet} {k : Nat} (hc : set = some c) (h : (compute set x).kappa25 = some k) :
    (compute set x).conc = some (concOf c.slope k) := by
  obtain ⟨_, _, _, hc', -, -, computed⟩ | ⟨-, computed⟩ := compute_cases set x
  · rw [computed] at h ⊢
    cases hc.symm.trans hc'
    cases h
    rfl
  · rw [computed] at h
    cases h

/-! ### The band -/

theorem requiredPresent_iff : requiredPresent st x = true ↔ st.ChannelsMet x := by
  simp [requiredPresent, Step.ChannelsMet, Option.isSome_iff_ne_none, and_assoc, or_iff_not_imp_left]

/-- The comparisons of R102 on what has been computed for a sample. -/
theorem inBand_iff (t : Taken) : inBand st t = true ↔ st.ChannelsMet t.sample ∧ ∃ tr fs, t.sample.tr = some tr ∧ t.sample.fs = some fs
    ∧ st.tmin ≤ tr ∧ st.fmin ≤ fs ∧ (st.convSet ≠ .none → ∃ conc, t.conc = some conc ∧ st.cmin ≤ conc ∧ conc ≤ st.cmax) := by
  rw [← requiredPresent_iff]
  unfold inBand
  cases t.sample.tr <;> cases t.sample.fs <;> cases t.conc <;> simp [or_iff_not_imp_left, and_assoc]

/-- Where the step names a set, a conc exists exactly where its set, κ and Tr do. -/
theorem inBand_compute_iff : inBand st (compute set x) = true ↔ st.BandMet set x := by
  rw [inBand_iff, compute_sample]
  constructor
  · rintro ⟨-, tr, fs, ht, hf, warm, flow, conc⟩
    refine ⟨tr, fs, ht, hf, warm, flow, fun named => ?_⟩
    obtain ⟨value, hv, low, high⟩ := conc named
    obtain ⟨c, k, t, hc, hk, ht', h⟩ | ⟨-, h⟩ := compute_cases set x
    · cases ht.symm.trans ht'
      rw [h] at hv
      cases hv
      exact ⟨c, k, hc, hk, low, high⟩
    · rw [h] at hv
      cases hv
  · rintro ⟨tr, fs, ht, hf, warm, flow, conc⟩
    refine ⟨⟨by simp [ht], by simp [hf], fun named => ?_⟩, tr, fs, ht, hf, warm, flow, fun named => ?_⟩
    · obtain ⟨c, k, -, hk, -, -⟩ := conc named
      simp [hk]
    · obtain ⟨c, k, hc, hk, low, high⟩ := conc named
      exact ⟨_, compute_conc set x hc (compute_kappa25 set x hc hk ht), low, high⟩
end

end Sys2Proof.Machine
end

section
/-! What a sample does in each mode (R97, R102 to R112, R114): the part common to the running modes, and credit and sensor loss in BURST. -/

namespace Sys2Proof.Machine

/-! ### The part common to the running modes -/

/-- The verifier with the sample of a running step noted and the divert state decided for it (R97, R110). -/
def Verifier.decided (st : Step) (set : Option ConvSet) (x : Sample) (v : Verifier) : Verifier :=
  { v with current := some (compute set x), divert := decideDivert st set (compute set x).conc v.divert }

/-- Its volume and statistics added too; credit and sensor loss are as they were (R112, R114). -/
def Verifier.observed (ms : Nat) (st : Step) (set : Option ConvSet) (x : Sample) (v : Verifier) : Verifier :=
  ((v.decided st set x).addVolume ms x.fr).addStats (compute set x)

/-- A verifier that differs at most in mode, credit, dropout, sensor loss and restarts. -/
def SameObserved (v w : Verifier) : Prop :=
  w = { v with mode := w.mode, credit := w.credit, dropout := w.dropout, sensorLoss := w.sensorLoss, restarts := w.restarts }

section
variable {v w : Verifier} (h : SameObserved v w)
include h
theorem SameObserved.current : w.current = v.current := (congrArg Verifier.current h).trans rfl
theorem SameObserved.divert : w.divert = v.divert := (congrArg Verifier.divert h).trans rfl
theorem SameObserved.returned : w.returned = v.returned := (congrArg Verifier.returned h).trans rfl
theorem SameObserved.recovered : w.recovered = v.recovered := (congrArg Verifier.recovered h).trans rfl
theorem SameObserved.drained : w.drained = v.drained := (congrArg Verifier.drained h).trans rfl
theorem SameObserved.minTr : w.minTr = v.minTr := (congrArg Verifier.minTr h).trans rfl
theorem SameObserved.maxTr : w.maxTr = v.maxTr := (congrArg Verifier.maxTr h).trans rfl
theorem SameObserved.peak : w.peak = v.peak := (congrArg Verifier.peak h).trans rfl
theorem SameObserved.required : w.required = v.required := (congrArg Verifier.required h).trans rfl
theorem SameObserved.waitMs : w.waitMs = v.waitMs := (congrArg Verifier.waitMs h).trans rfl
theorem SameObserved.runMs : w.runMs = v.runMs := (congrArg Verifier.runMs h).trans rfl
theorem SameObserved.reps : w.reps = v.reps := (congrArg Verifier.reps h).trans rfl
end

section
variable (ms limit : Nat) (st : Step) (set : Option ConvSet) (x : Sample) (v : Verifier)

/-- A volume that keeps the returned numerator below its limit goes to it and to the side of the divert state. -/
theorem Verifier.addVolume_within {f : Nat} (h : v.returned + f * ms < 2 ^ 40) :
    (v.addVolume ms (some f)).returned = v.returned + f * ms
    ∧ (if v.divert = .recover then (v.addVolume ms (some f)).recovered = v.recovered + f * ms ∧ (v.addVolume ms (some f)).drained = v.drained
      else (v.addVolume ms (some f)).drained = v.drained + f * ms ∧ (v.addVolume ms (some f)).recovered = v.recovered) := by
  have room : ¬ Config.numeratorLimit ≤ v.returned + f * ms := Nat.not_le.2 h
  unfold Verifier.addVolume
  dsimp only
  rw [if_neg room]
  cases v.divert <;> simp
theorem Verifier.addVolume_beyond {f : Nat} (h : 2 ^ 40 ≤ v.returned + f * ms) : v.addVolume ms (some f) = v := if_pos h

/-! ### The fields of the observed verifier -/

/-- Beside the volume, whose side the decided divert state gives, each field has a value of its own. -/
theorem Verifier.observed_eq : v.observed ms st set x = { v with
    current := some (compute set x), divert := decideDivert st set (compute set x).conc v.divert
    minTr := lowerOf v.minTr x.tr, maxTr := higherOf v.maxTr x.tr, peak := higherOf v.peak (compute set x).conc
    returned := (v.observed ms st set x).returned, recovered := (v.observed ms st set x).recovered
    drained := (v.observed ms st set x).drained } := by
  unfold Verifier.observed Verifier.addStats Verifier.addVolume
  rw [compute_sample]
  split
  · rfl
  dsimp only
  split
  · rfl
  · split <;> rfl
theorem Verifier.observed_current : (v.observed ms st set x).current = some (compute set x) := by rw [Verifier.observed_eq]
theorem Verifier.observed_divert : (v.observed ms st set x).divert = decideDivert st set (compute set x).conc v.divert := by
  rw [Verifier.observed_eq]
theorem Verifier.observed_minTr : (v.observed ms st set x).minTr = lowerOf v.minTr x.tr := by rw [Verifier.observed_eq]
theorem Verifier.observed_maxTr : (v.observed ms st set x).maxTr = higherOf v.maxTr x.tr := by rw [Verifier.observed_eq]
theorem Verifier.observed_peak : (v.observed ms st set x).peak = higherOf v.peak (compute set x).conc := by rw [Verifier.observed_eq]
@[simp] theorem Verifier.observed_mode : (v.observed ms st set x).mode = v.mode := by rw [Verifier.observed_eq]
@[simp] theorem Verifier.observed_required : (v.observed ms st set x).required = v.required := by rw [Verifier.observed_eq]
@[simp] theorem Verifier.observed_credit : (v.observed ms st set x).credit = v.credit := by rw [Verifier.observed_eq]
@[simp] theorem Verifier.observed_dropout : (v.observed ms st set x).dropout = v.dropout := by rw [Verifier.observed_eq]
@[simp] theorem Verifier.observed_sensorLoss : (v.observed ms st set x).sensorLoss = v.sensorLoss := by rw [Verifier.observed_eq]
@[simp] theorem Verifier.observed_restarts : (v.observed ms st set x).restarts = v.restarts := by rw [Verifier.observed_eq]
@[simp] theorem Verifier.observed_waitMs : (v.observed ms st set x).waitMs = v.waitMs := by rw [Verifier.observed_eq]
@[simp] theorem Verifier.observed_runMs : (v.observed ms st set x).runMs = v.runMs := by rw [Verifier.observed_eq]
@[simp] theorem Verifier.observed_reps : (v.observed ms st set x).reps = v.reps := by rw [Verifier.observed_eq]

/-! ### The sample in each mode -/

theorem Verifier.takeSample_idle (h : v.mode = .off ∨ v.mode = .standby) :
    v.takeSample ms limit st set x = ⟨{ v with current := some ⟨x, none, none⟩ }, .nothing, false⟩ := by
  cases v
  rcases h with h | h <;> (cases h; rfl)
theorem Verifier.takeSample_timed (burst : v.mode = .burst) (timed : st.timed = true) :
    v.takeSample ms limit st set x = (v.observed ms st set x).addCredit 16 := by
  cases v
  cases burst
  unfold Verifier.takeSample
  rw [timed]
  rfl
theorem Verifier.takeSample_burst (burst : v.mode = .burst) (timed : st.timed = false) :
    v.takeSample ms limit st set x = (v.observed ms st set x).burstSample limit st (compute set x) := by
  cases v
  cases burst
  unfold Verifier.takeSample
  rw [timed]
  rfl
theorem Verifier.takeSample_pause (h : v.mode = .pause) :
    v.takeSample ms limit st set x = ⟨if requiredPresent st x then { v.observed ms st set x with sensorLoss := 0 }
      else v.observed ms st set x, .nothing, false⟩ := by
  cases v
  cases h
  rfl
theorem Verifier.takeSample_ended (h : v.mode = .burstDone ∨ v.mode = .halted) :
    v.takeSample ms limit st set x = ⟨v.observed ms st set x, .nothing, false⟩ := by
  cases v
  rcases h with h | h <;> (cases h; rfl)
end

/-! ### Credit and sensor loss -/

section
variable (v : Verifier)

/-- A weight credited, and the burst complete where the credit gets to the required credit (R104, R106). -/
theorem Verifier.addCredit_spec (w : Nat) : (v.addCredit w).ver.credit = min (v.credit + w) v.required
    ∧ (v.addCredit w).ver.dropout = v.dropout ∧ (v.addCredit w).ver.sensorLoss = v.sensorLoss
    ∧ (v.addCredit w).ver.restarts = v.restarts ∧ (v.addCredit w).sensorAbsent = false
    ∧ (if (v.addCredit w).ver.credit = v.required then (v.addCredit w).report = .burstComplete ∧ (v.addCredit w).ver.mode = .burstDone
        else (v.addCredit w).report = .nothing ∧ (v.addCredit w).ver.mode = v.mode) := by
  unfold Verifier.addCredit
  dsimp only
  split <;> exact ⟨rfl, rfl, rfl, rfl, rfl, rfl, rfl⟩

theorem Verifier.addCredit_observed (w : Nat) : SameObserved v (v.addCredit w).ver := by
  unfold Verifier.addCredit
  dsimp only
  split <;> rfl

/-- A dropout within the grace is counted; past it the credit is thrown away (R105). -/
theorem Verifier.addDropout_spec (grace : Nat) :
    if grace < v.dropout + 1 then
      (v.addDropout grace).credit = 0 ∧ (v.addDropout grace).dropout = 0 ∧ (v.addDropout grace).restarts = min (v.restarts + 1) 255
    else (v.addDropout grace).credit = v.credit ∧ (v.addDropout grace).dropout = v.dropout + 1
      ∧ (v.addDropout grace).restarts = v.restarts := by
  unfold Verifier.addDropout
  split <;> exact ⟨rfl, rfl, rfl⟩

theorem Verifier.addDropout_observed (grace : Nat) : SameObserved v (v.addDropout grace) := by
  unfold Verifier.addDropout
  split <;> rfl

section
variable (limit : Nat) {st : Step} {t : Taken}

theorem Verifier.burstSample_inBand (h : inBand st t = true) :
    v.burstSample limit st t = ({ v with sensorLoss := 0, dropout := 0 }).addCredit (weight st (t.sample.tr.getD 0)) := if_pos h

/-- Out of band the dropout decides on the credit, and the required channels on the sensor loss and the mode (R105, R108, R109). -/
theorem Verifier.burstSample_outOfBand (h : inBand st t = false) :
    (if st.grace < v.dropout + 1 then
        (v.burstSample limit st t).ver.credit = 0 ∧ (v.burstSample limit st t).ver.dropout = 0
        ∧ (v.burstSample limit st t).ver.restarts = min (v.restarts + 1) 255
      else (v.burstSample limit st t).ver.credit = v.credit ∧ (v.burstSample limit st t).ver.dropout = v.dropout + 1
        ∧ (v.burstSample limit st t).ver.restarts = v.restarts)
    ∧ (if requiredPresent st t.sample = true then
        (v.burstSample limit st t).ver.sensorLoss = 0 ∧ (v.burstSample limit st t).report = .nothing
        ∧ (v.burstSample limit st t).ver.mode = v.mode ∧ (v.burstSample limit st t).sensorAbsent = false
      else (v.burstSample limit st t).ver.sensorLoss = v.sensorLoss + 1 ∧ (v.burstSample limit st t).sensorAbsent = true
        ∧ (if limit ≤ v.sensorLoss + 1 then (v.burstSample limit st t).report = .sensorLost ∧ (v.burstSample limit st t).ver.mode = .halted
          else (v.burstSample limit st t).report = .nothing ∧ (v.burstSample limit st t).ver.mode = v.mode)) := by
  have dropout := v.addDropout_spec st.grace
  have mode := v.addDropout_mode st.grace
  unfold Verifier.burstSample
  rw [h]
  by_cases present : requiredPresent st t.sample = true
  · simp only [if_pos present]
    exact ⟨dropout, rfl, rfl, mode, rfl⟩
  by_cases lost : limit ≤ v.sensorLoss + 1
  · simp only [if_neg present, if_pos lost]
    exact ⟨dropout, rfl, rfl, rfl, rfl⟩
  · simp only [if_neg present, if_neg lost]
    exact ⟨dropout, rfl, rfl, rfl, mode⟩

theorem Verifier.burstSample_observed : SameObserved v (v.burstSample limit st t).ver := by
  by_cases band : inBand st t = true
  · rw [v.burstSample_inBand limit band]
    exact Verifier.addCredit_observed { v with sensorLoss := 0, dropout := 0 } _
  · have dropout := v.addDropout_observed st.grace
    unfold Verifier.burstSample
    rw [if_neg band]
    dsimp only
    split
    · rw [dropout]; rfl
    · split <;> (rw [dropout]; rfl)
end
end

section
variable (ms limit : Nat) (st : Step) (set : Option ConvSet) (x : Sample) {v : Verifier}

theorem Mode.isRunning_iff_or (m : Mode) : m.isRunning = true ↔ m = .burst ∨ m = .burstDone ∨ m = .pause ∨ m = .halted := by
  cases m <;> decide

/-- In every running mode the sample is observed alike. -/
theorem Verifier.takeSample_observed (running : v.mode = .burst ∨ v.mode = .burstDone ∨ v.mode = .pause ∨ v.mode = .halted) :
    SameObserved (v.observed ms st set x) (v.takeSample ms limit st set x).ver := by
  rcases running with burst | done | pause | halted
  · cases timed : st.timed with
    | true => rw [v.takeSample_timed ms limit st set x burst timed]; exact Verifier.addCredit_observed _ _
    | false => rw [v.takeSample_burst ms limit st set x burst timed]; exact Verifier.burstSample_observed _ _
  · rw [v.takeSample_ended ms limit st set x (.inl done)]; rfl
  · rw [v.takeSample_pause ms limit st set x pause]
    dsimp only
    split <;> rfl
  · rw [v.takeSample_ended ms limit st set x (.inr halted)]; rfl

/-- The sample taken, with what is computed from it, stands in every mode; κ25 and conc are computed in the running modes alone (R97). -/
theorem Verifier.takeSample_current (v : Verifier) : (v.takeSample ms limit st set x).ver.current
    = some (if v.mode.isRunning = true then compute set x else ⟨x, none, none⟩) := by
  split
  · rename_i running
    have seen := v.takeSample_observed ms limit st set x (v.mode.isRunning_iff_or.1 running)
    exact seen.current.trans (v.observed_current ms st set x)
  · rename_i idle
    have mode : v.mode = .off ∨ v.mode = .standby := by
      cases h : v.mode <;> rw [h] at idle <;> simp [Mode.isRunning] at idle ⊢
    rw [v.takeSample_idle ms limit st set x mode]

section
variable (burst : v.mode = .burst)
include burst

/-- A step that is not TIMED, in band: dropout and sensor loss are cleared and the weight is credited (R103 to R106, R108). -/
theorem Verifier.takeSample_inBand {e : SampleEffect} (he : e = v.takeSample ms limit st set x) (timed : st.timed = false)
    (band : inBand st (compute set x) = true) :
    e.ver.sensorLoss = 0 ∧ e.ver.dropout = 0 ∧ e.sensorAbsent = false ∧ e.ver.restarts = v.restarts
    ∧ e.ver.credit = min (v.credit + weight st (x.tr.getD 0)) v.required
    ∧ (if e.ver.credit = v.required then e.report = .burstComplete ∧ e.ver.mode = .burstDone
        else e.report = .nothing ∧ e.ver.mode = .burst) := by
  rw [v.takeSample_burst ms limit st set x burst timed, Verifier.burstSample_inBand _ limit band, compute_sample] at he
  have effect := Verifier.addCredit_spec { v.observed ms st set x with sensorLoss := 0, dropout := 0 } (weight st (x.tr.getD 0))
  rw [← he] at effect
  simp only [Verifier.observed_credit, Verifier.observed_required, Verifier.observed_restarts, Verifier.observed_mode, burst] at effect
  obtain ⟨credit, dropout, loss, restarts, absent, report⟩ := effect
  exact ⟨loss, dropout, absent, restarts, credit, report⟩

/-- A step that is not TIMED, out of band: the dropout decides on the credit, the required channels on the sensor loss (R105, R108, R109). -/
theorem Verifier.takeSample_outOfBand {e : SampleEffect} (he : e = v.takeSample ms limit st set x) (timed : st.timed = false)
    (out : inBand st (compute set x) = false) :
    (if st.grace < v.dropout + 1 then
        e.ver.credit = 0 ∧ e.ver.dropout = 0 ∧ e.ver.restarts = min (v.restarts + 1) 255
      else e.ver.credit = v.credit ∧ e.ver.dropout = v.dropout + 1 ∧ e.ver.restarts = v.restarts)
    ∧ (if requiredPresent st x = true then
        e.ver.sensorLoss = 0 ∧ e.report = .nothing ∧ e.ver.mode = .burst ∧ e.sensorAbsent = false
      else e.ver.sensorLoss = v.sensorLoss + 1 ∧ e.sensorAbsent = true
        ∧ (if limit ≤ v.sensorLoss + 1 then e.report = .sensorLost ∧ e.ver.mode = .halted
          else e.report = .nothing ∧ e.ver.mode = .burst)) := by
  rw [v.takeSample_burst ms limit st set x burst timed] at he
  have effect := (v.observed ms st set x).burstSample_outOfBand limit out
  simpa only [← he, Verifier.observed_credit, Verifier.observed_dropout, Verifier.observed_sensorLoss, Verifier.observed_restarts,
    Verifier.observed_mode, compute_sample, burst] using effect

/-- A TIMED step credits the base weight whatever the sample (R107). -/
theorem Verifier.takeSample_timed_credit {e : SampleEffect} (he : e = v.takeSample ms limit st set x) (timed : st.timed = true) :
    e.ver.credit = min (v.credit + 16) v.required ∧ e.ver.dropout = v.dropout ∧ e.ver.sensorLoss = v.sensorLoss
    ∧ e.ver.restarts = v.restarts ∧ e.sensorAbsent = false
    ∧ (if e.ver.credit = v.required then e.report = .burstComplete ∧ e.ver.mode = .burstDone
        else e.report = .nothing ∧ e.ver.mode = .burst) := by
  rw [v.takeSample_timed ms limit st set x burst timed] at he
  have effect := (v.observed ms st set x).addCredit_spec 16
  simpa only [← he, Verifier.observed_credit, Verifier.observed_dropout, Verifier.observed_sensorLoss, Verifier.observed_restarts,
    Verifier.observed_required, Verifier.observed_mode, burst] using effect

/-- Out of band the credit is kept or lost (R103, R105). -/
theorem Verifier.takeSample_outOfBand_credit (timed : st.timed = false) (out : inBand st (compute set x) = false) :
    (v.takeSample ms limit st set x).ver.credit = v.credit ∨ (v.takeSample ms limit st set x).ver.credit = 0 := by
  obtain ⟨dropout, -⟩ := Verifier.takeSample_outOfBand ms limit st set x burst rfl timed out
  split at dropout
  · exact .inr dropout.1
  · exact .inl dropout.1
end
end

end Sys2Proof.Machine
end

section
/-! The statements on numbers (R100, R101, R103). -/

open Sys2Proof Sys2Proof.Machine

/-- Settles O47: D by its range, the quotient by its remainder, and κ25 by what is computed of the sample that the verifier took. -/
theorem conductivityCompensatedTo25Degrees : Obligations.ConductivityCompensatedTo25Degrees := by
  refine ⟨fun alpha tr kappa ha ht hk => ?_, fun ms limit st set x v => ?_⟩
  · obtain ⟨signed, low, high⟩ := compensationDivisor_range ha ht
    exact ⟨signed, low, high, rfl, Nat.min_le_right _ _, clampedQuotient_bounds (by omega), kappa25Of_le,
      fun flat => flat ▸ kappa25Of_zero hk⟩
  · refine ⟨_, v.takeSample_current ms limit st set x, ?_⟩
    split
    · rename_i running
      refine ⟨compute_sample set x, ?_, fun c k tr hc hk ht _ => compute_kappa25 set x hc hk ht⟩
      rw [compute_kappa25_isSome]
      exact (and_iff_right (v.mode.isRunning_iff_or.1 running)).symm
    · rename_i idle
      refine ⟨rfl, ?_, fun _ _ _ _ _ _ => nofun⟩
      rw [← Mode.isRunning_iff_or]
      exact ⟨nofun, fun h => absurd h.1 idle⟩

/-- Settles O48: the quotient by its remainder, and conc by what is computed of the sample that the verifier took. -/
theorem concentrationFromSlope : Obligations.ConcentrationFromSlope := by
  refine ⟨fun slope k hs hk => ?_, fun ms limit st set x v => ?_⟩
  · refine ⟨rfl, Nat.mul_le_mul hk hs, clampedQuotient_bounds (by decide), ?_⟩
    unfold concOf
    omega
  · refine ⟨_, v.takeSample_current ms limit st set x, ?_⟩
    split
    · exact ⟨compute_conc_isSome set x, fun c k hc computed => compute_conc set x hc computed⟩
    · exact ⟨rfl, fun _ _ _ => nofun⟩

/-- Settles O49: the weight by its quotient, and the credit by what a sample in band and out of band does to it. -/
theorem weightOfInBandSample : Obligations.WeightOfInBandSample := by
  refine ⟨fun st t band => ?_, fun ms limit st set x v burst timed out => ?_, fun ms limit st set x v burst timed =>
    ⟨inBand_compute_iff st set x, fun tr ht met => ?_, fun unmet => ?_⟩⟩
  · obtain ⟨-, tr, -, ht, -, warm, -, -⟩ := (inBand_iff st t).1 band
    exact ⟨tr, ht, warm, weight_of_no_span st tr, weight_of_span st tr, (weight_range st tr).1, (weight_range st tr).2,
      weight_top st tr, fun _ => weight_mono st⟩
  · rcases Verifier.takeSample_outOfBand_credit ms limit st set x burst timed out with kept | lost
    · exact kept.le
    · rw [lost]; exact Nat.zero_le _
  · obtain ⟨-, -, -, -, credit, -⟩ :=
      Verifier.takeSample_inBand ms limit st set x burst rfl timed ((inBand_compute_iff st set x).2 met)
    rw [credit, ht]
    rfl
  · refine Verifier.takeSample_outOfBand_credit ms limit st set x burst timed ?_
    rw [← Bool.not_eq_true, inBand_compute_iff]
    exact unmet

end

section
/-! The band, and a sample in every mode (R97, R102 to R112, R114). -/

namespace Sys2Proof.Machine

/-! ### Divert and statistics -/

section
variable (st : Step) (set : Option ConvSet) (conc : Option Nat) (d : Divert)

/-- A step that diverts turns at the marks of its set: up at RECOVER, down below DRAIN; without conc it stays (R110). -/
theorem decideDivert_divert (h : st.routing = .divert) (k : ConvSet) (hk : set = some k) :
    (∀ c, conc = some c → decideDivert st set conc d = if d = .drain then (if k.recover ≤ c then .recover else .drain)
      else if c < k.drain then .drain else .recover)
    ∧ (conc = none → decideDivert st set conc d = d) := by
  subst hk
  unfold decideDivert
  rw [h]
  constructor
  · rintro c rfl
    cases d <;> rfl
  · rintro rfl
    rfl
theorem decideDivert_drain (h : st.routing = .drain) : decideDivert st set conc d = .drain := by unfold decideDivert; rw [h]
theorem decideDivert_recover (h : st.routing = .recover) : decideDivert st set conc d = .recover := by unfold decideDivert; rw [h]
end

theorem lowerOf_some (a : Option Nat) (t : Nat) : lowerOf a (some t) = some (min (a.getD t) t) := by cases a <;> simp [lowerOf]
theorem higherOf_some (a : Option Nat) (t : Nat) : higherOf a (some t) = some (max (a.getD t) t) := by cases a <;> simp [higherOf]
theorem lowerOf_none (a : Option Nat) : lowerOf a none = a := by cases a <;> rfl
theorem higherOf_none (a : Option Nat) : higherOf a none = a := by cases a <;> rfl

/-! ### The volume of an observed sample -/

section
variable (ms limit : Nat) (st : Step) (set : Option ConvSet) {x : Sample} (v : Verifier)

theorem Verifier.observed_volume {fr : Nat} (flow : x.fr = some fr) (room : v.returned + fr * ms < 2 ^ 40) :
    (v.observed ms st set x).returned = v.returned + fr * ms
    ∧ (if (v.observed ms st set x).divert = .recover then
        (v.observed ms st set x).recovered = v.recovered + fr * ms ∧ (v.observed ms st set x).drained = v.drained
      else (v.observed ms st set x).drained = v.drained + fr * ms ∧ (v.observed ms st set x).recovered = v.recovered) := by
  rw [Verifier.observed_divert]
  unfold Verifier.observed
  rw [flow]
  exact (v.decided st set x).addVolume_within ms room

/-- Without Fr, or with the returned numerator at its limit, no volume is added. -/
theorem Verifier.observed_noVolume (still : x.fr = none ∨ ∃ fr, x.fr = some fr ∧ 2 ^ 40 ≤ v.returned + fr * ms) :
    (v.observed ms st set x).returned = v.returned ∧ (v.observed ms st set x).recovered = v.recovered
    ∧ (v.observed ms st set x).drained = v.drained := by
  unfold Verifier.observed
  obtain flow | ⟨fr, flow, full⟩ := still
  · rw [flow]
    exact ⟨rfl, rfl, rfl⟩
  · rw [flow, (v.decided st set x).addVolume_beyond ms full]
    exact ⟨rfl, rfl, rfl⟩

/-- Outside BURST a sample is observed and no more; in PAUSE the required channels present clear the sensor loss (R106, R108, R109). -/
theorem Verifier.takeSample_notBurst (h : v.mode = .burstDone ∨ v.mode = .pause ∨ v.mode = .halted) :
    v.takeSample ms limit st set x = ⟨{ v.observed ms st set x with
      sensorLoss := if v.mode = .pause ∧ requiredPresent st x = true then 0 else v.sensorLoss }, .nothing, false⟩ := by
  rcases h with done | pause | halted
  · rw [v.takeSample_ended ms limit st set x (.inl done), if_neg (by simp [done]), ← v.observed_sensorLoss ms st set x]
  · rw [v.takeSample_pause ms limit st set x pause]
    by_cases present : requiredPresent st x = true
    · rw [if_pos present, if_pos ⟨pause, present⟩]
    · rw [if_neg present, if_neg (fun k => present k.2), ← v.observed_sensorLoss ms st set x]
  · rw [v.takeSample_ended ms limit st set x (.inr halted), if_neg (by simp [halted]), ← v.observed_sensorLoss ms st set x]
end

end Sys2Proof.Machine

open Sys2Proof Sys2Proof.Machine

/-- Settles O38: in BURST by the three effects on the credit; in every running mode the rest by what observing a sample does. -/
theorem burstSampleCredits : Obligations.BurstSampleCredits := by
  refine ⟨fun st set x => ⟨inBand_compute_iff st set x, requiredPresent_iff st x⟩, fun ms limit st set x v e burst he =>
    ⟨Verifier.takeSample_inBand ms limit st set x burst he, Verifier.takeSample_outOfBand ms limit st set x burst he,
      Verifier.takeSample_timed_credit ms limit st set x burst he⟩,
    fun ms limit st set x v e running he => ?_, fun ms limit st set x v => v.takeSample_idle ms limit st set x⟩
  have seen : SameObserved (v.observed ms st set x) e.ver := he ▸ v.takeSample_observed ms limit st set x running
  have divert : e.ver.divert = decideDivert st set (compute set x).conc v.divert := seen.divert.trans (v.observed_divert ms st set x)
  refine ⟨fun h => divert.trans (decideDivert_drain st set _ _ h), fun h => divert.trans (decideDivert_recover st set _ _ h),
    fun h k hk => divert ▸ decideDivert_divert st set _ _ h k hk, fun fr flow room => ?_, fun still => ?_,
    fun tr ht => ?_, fun ht => ?_, fun conc hc => ?_, fun hc => ?_, fun quiet => ?_,
    seen.required.trans (v.observed_required ms st set x), seen.waitMs.trans (v.observed_waitMs ms st set x),
    seen.runMs.trans (v.observed_runMs ms st set x), seen.reps.trans (v.observed_reps ms st set x)⟩
  · rw [seen.returned, seen.recovered, seen.drained, seen.divert]
    exact v.observed_volume ms st set flow room
  · rw [seen.returned, seen.recovered, seen.drained]
    exact v.observed_noVolume ms st set still
  · rw [seen.minTr, seen.maxTr, v.observed_minTr, v.observed_maxTr, ht]
    exact ⟨lowerOf_some _ tr, higherOf_some _ tr⟩
  · rw [seen.minTr, seen.maxTr, v.observed_minTr, v.observed_maxTr, ht]
    exact ⟨lowerOf_none _, higherOf_none _⟩
  · rw [seen.peak, v.observed_peak, hc]
    exact higherOf_some _ conc
  · rw [seen.peak, v.observed_peak, hc]
    exact higherOf_none _
  · rw [he, v.takeSample_notBurst ms limit st set (running.resolve_left quiet)]
    exact ⟨rfl, rfl, v.observed_mode ms st set x, v.observed_credit ms st set x, v.observed_dropout ms st set x,
      v.observed_restarts ms st set x, rfl⟩

end

section
/-! The exchange with the front-end (R97, R120 to R124, R189). -/

namespace Sys2Proof.Machine

/-! ### The reply -/

section
variable (bs : List Byte)

/-- Where a byte stands for what lies past the end, a two-byte field is a 16-bit number. -/
theorem wordAt_lt {past : Nat} (byte : past < 256) (i : Nat) : wordAt past bs i < 65536 := by
  have bytes (k : Nat) : byteAt past bs k < 256 := by
    unfold byteAt
    cases bs[k]? with
    | none => exact byte
    | some b => exact b.isLt
  have high := bytes i
  have low := bytes (i + 1)
  unfold wordAt
  omega

theorem replyCheckGood_iff (length : bs.length = 12) :
    replyCheckGood bs = true ↔ (checkBytes (bs.take 10)).toNat = wordAt 0 bs 10 := by
  have value : (BitVec.ofNat 16 (wordAt 0 bs 10)).toNat = wordAt 0 bs 10 := Nat.mod_eq_of_lt (wordAt_lt bs (by decide) 10)
  have equal : (checkBytes (bs.take 10)).toNat = wordAt 0 bs 10 ↔ checkBytes (bs.take 10) = BitVec.ofNat 16 (wordAt 0 bs 10) := by
    rw [← BitVec.toNat_inj, value]
  simp [replyCheckGood, length, equal]

/-- The two bytes of Tr are a signed number, and one below 0 is taken as 0. -/
theorem replyTr_eq : replyTr bs = if 32768 ≤ wordAt 0 bs 1 then 0 else wordAt 0 bs 1 := by
  have small := wordAt_lt bs (past := 0) (by decide) 1
  unfold replyTr
  rw [BitVec.toInt_eq_toNat_cond, BitVec.toNat_ofNat, Nat.mod_eq_of_lt (by simpa using small)]
  split <;> split <;> omega

theorem replyTr_clamped : min (replyTr bs) 1500 = if 32768 ≤ wordAt 0 bs 1 then 0 else min (wordAt 0 bs 1) 1500 := by
  rw [replyTr_eq]
  split <;> rfl

/-- Valid flag k of a reply (R189). -/
theorem replyFlag_iff {k : Nat} (small : k < 8) :
    (BitVec.ofNat 8 (byteAt 0 bs 9)).getLsbD k = true ↔ byteAt 0 bs 9 / 2 ^ k % 2 = 1 := by
  rw [BitVec.getLsbD_ofNat, Nat.testBit_eq_decide_div_mod_eq]
  simp [small]

/-- A channel of a reply, from its valid flag, its value and its highest value. -/
theorem channel_of_replyFlag {k : Nat} (small : k < 8) (value high : Nat) :
    channel ((BitVec.ofNat 8 (byteAt 0 bs 9)).getLsbD k) value high
      = if byteAt 0 bs 9 / 2 ^ k % 2 = 1 then some (min value high) else none := by
  unfold channel
  simp only [replyFlag_iff bs small]
end

/-! ### The exchange -/

theorem exec_samplePeriodExpiry {s : State} (running : s.loader.phase = .running) (idle : s.port.exchange = .idle) :
    exec .samplePeriodExpiry s = done (s.onPort fun p => { p with
      samplePeriod := .from s.settings.sampleMs, requestNumber := (p.requestNumber + 1) % 256
      request := some (sampleRequest ((p.requestNumber + 1) % 256)), replyTimer := .from 0, exchange := .awaiting }) :=
  congrArg done (if_pos ⟨State.running_of_phase running, idle⟩)

/-- A reply that no exchange awaits, or a valid one with another request number, is discarded (R121). -/
theorem exec_sampleReply_discarded {s : State} {bytes : List Byte} (h : s.port.exchange = .idle ∨
    replyCheckGood bytes = true ∧ byteAt 0 bytes 0 ≠ s.port.requestNumber) : exec (.sampleReply bytes) s = done s := by
  refine congrArg done ?_
  split
  · rename_i due
    obtain ⟨good, number⟩ := h.resolve_left (by rw [due.2]; decide)
    rw [if_pos good, if_neg number]
  · rfl

section
variable (s : State) (e : SampleEffect) (n : Nat) (silent : Bool)

theorem State.stickyIf_flag_eq (c : Bool) (f g : Sticky) : (s.stickyIf c f).flag g = (s.flag g || c && decide (g = f)) := by
  cases c
  · simp [State.stickyIf]
  · simp [State.stickyIf, State.flag, State.sticky, Log.isSet_setFlag, eq_comm]
theorem State.sampled_untouched : Untouched [.ver, .port, .log] s (s.sampled e n silent) :=
  ((Untouched.onPort s _).mono (by decide)).trans (((Untouched.stickyIf _ _ _).mono (by decide)).trans
    (((Untouched.onVer _ _).mono (by decide)).trans ((Untouched.stickyIf _ _ _).mono (by decide))))
theorem State.sampled_port : (s.sampled e n silent).port =
    { s.port with exchange := .idle, replyTimer := .stopped, absent := n, silent := silent } := by
  unfold State.sampled
  cases silent <;> cases e.sensorAbsent <;> rfl
/-- The end of an exchange sets flags and renewal marks, and leaves the rest of the record unit alone. -/
theorem State.sampled_log : (s.sampled e n silent).log =
    { s.log with flags := (s.sampled e n silent).log.flags, renewal := (s.sampled e n silent).log.renewal } := by
  unfold State.sampled
  cases silent <;> cases e.sensorAbsent <;> rfl
theorem State.sampled_flag (f : Sticky) : (s.sampled e n silent).flag f =
    (s.flag f || silent && decide (f = .frontendSilent) || e.sensorAbsent && decide (f = .sensorAbsent)) := by
  unfold State.sampled
  rw [State.stickyIf_flag_eq]
  exact congrArg (· || _) (State.stickyIf_flag_eq _ silent .frontendSilent f)
end

/-- Whatever the mode, the sample taken stands as the current one (R97). -/
theorem Verifier.takeSample_sample (ms limit : Nat) (st : Step) (set : Option ConvSet) (x : Sample) (v : Verifier) :
    (v.takeSample ms limit st set x).ver.current.map (·.sample) = some x := by
  rw [Verifier.takeSample_current]
  split
  · exact congrArg some (compute_sample set x)
  · rfl

end Sys2Proof.Machine

open Sys2Proof Sys2Proof.Machine

/-- Settles O37: the reply byte by byte, and the end of an exchange as the one state in which the verifier has taken its sample. -/
theorem sampleExchange : Obligations.SampleExchange := by
  refine ⟨?_, fun s running idle => ?_, fun s c x n silent e running awaiting ends he quiet => ?_, fun s bytes running discarded => ?_⟩
  · rintro bytes b length rfl
    have kappa : min (wordAt 0 bytes 7) 65535 = wordAt 0 bytes 7 := Nat.min_eq_left (Nat.le_of_lt_succ (wordAt_lt bytes (by decide) 7))
    refine ⟨replyCheckGood_iff bytes length, ?_, channel_of_replyFlag bytes (k := 1) (by decide) _ _,
      channel_of_replyFlag bytes (k := 2) (by decide) _ _, ?_⟩
    · have channel := channel_of_replyFlag bytes (k := 0) (by decide) (replyTr bytes) 1500
      rw [Nat.pow_zero, Nat.div_one, replyTr_clamped] at channel
      exact channel
    · have channel := channel_of_replyFlag bytes (k := 3) (by decide) (wordAt 0 bytes 7) 65535
      rw [kappa] at channel
      exact channel
  · refine ⟨_, exec_samplePeriodExpiry running idle, (Untouched.onPort s _).finish, State.finish_samePort _⟩
  · have ended : exec c s = done (s.sampled e n silent) := by
      have reported := exec_endsExchange running awaiting ends he
      rw [quiet] at reported
      exact reported
    have taken : (s.sampled e n silent).finish.ver = e.ver := (State.finish_ver _).trans (s.sampled_reports e n silent).ver
    refine ⟨_, ended, (s.sampled_untouched e n silent).finish, taken, ?_, ?_, ?_, fun f => ?_⟩
    · rw [taken, he]
      exact Verifier.takeSample_sample ..
    · exact s.sampled_port e n silent ▸ State.finish_samePort _
    · rw [State.finish_log]
      exact s.sampled_log e n silent
    · exact (State.finish_flag _ f).trans (s.sampled_flag e n silent f)
  · exact ⟨_, exec_sampleReply_discarded discarded, (Untouched.refl [] s).finish⟩

end

section
/-! The loader, the uptime counter and the field port's lines (R119, R125, R127, R130, R175 to R177, R180, R182): the indicators
that every step ends with, the node held in reset, the judgement of the image, and the change of one line's level. -/

namespace Sys2Proof.Machine

/-! ### Indicators (R130) -/

/-- The indicators driven at the end of a command are those of the state that it leaves. -/
theorem State.finish_indicators (s : State) : s.finish.port.indicators = s.finish.lights := rfl

section
variable (s : State)

theorem State.lights_round : s.lights.round = true ↔ s.loader.phase = .running ∧ s.seq.state ≠ .idle := by
  unfold State.lights
  cases s.loader.phase <;> simp

theorem State.lights_operator : s.lights.operator = true ↔
    s.loader.phase = .running ∧ (s.seq.state = .holdWait ∨ s.seq.state = .suspended) := by
  unfold State.lights
  cases s.loader.phase <;> simp

theorem State.lights_fault : s.lights.fault = true ↔
    s.loader.phase = .configFault ∨ s.loader.phase = .running ∧ (s.link.state = .barred ∨ s.port.silent = true) := by
  unfold State.lights
  cases s.loader.phase <;> simp

theorem State.lights_link : s.lights.link = true ↔
    s.loader.phase = .running ∧ s.link.state = .engaged ∧ s.adm.state = .active := by
  unfold State.lights
  cases s.loader.phase <;> simp
end

theorem State.lights_of_held {s : State} (held : s.loader.phase = .held) : s.lights = ⟨false, false, false, false⟩ := by
  unfold State.lights
  rw [held]

/-! ### Reset (R127, R175) -/

/-- The inputs of a node held: each but RESET keeps its level alone (R119, R125). -/
theorem State.held_line (s : State) (reset : Line) (x : Input) :
    (s.held reset).port.line x = if x = .reset then reset else (s.port.line x).inReset := by
  cases x <;> simp [State.held, Port.line]

/-- A rising edge leaves RESET as power-up takes an active pin. -/
theorem Line.settled_of_active {l : Line} (active : l.level = true) : l.settled = l.resetAtPowerUp := by
  simp [Line.settled, Line.resetAtPowerUp, active]

/-- POWER_UP and a rising edge of RESET hold the node alike. -/
theorem exec_holds {c : Instr} {s : State}
    (h : c = .powerUp ∨ c = .resetRisingEdge ∧ s.port.reset.timer.on = true ∧ s.port.reset.level = true) :
    exec c s = done (s.held s.port.reset.resetAtPowerUp) := by
  obtain rfl | ⟨rfl, runs, active⟩ := h
  · rfl
  · rw [← Line.settled_of_active active]
    exact congrArg done (if_pos ⟨runs, active⟩)

/-! ### The loader (R175 to R177, R180, R182) -/

theorem exec_resetFallingEdge {s : State} (runs : s.port.reset.timer.on = true) (inactive : s.port.reset.level = false)
    (held : s.loader.phase = .held) : exec .resetFallingEdge s =
      done ((s.onPort fun p => { p with reset := p.reset.settled }).onLoader fun l => { l with phase := .reading }) :=
  congrArg done (if_pos ⟨runs, inactive, held⟩)

/-- The loader once the image has been read and judged (R176, R177, R180). -/
def Loader.judged (bytes : List Byte) (l : Loader) : Loader :=
  if (judgeImage bytes).2 then { l with phase := .validating, check := (judgeImage bytes).1, image := bytes }
  else { l with phase := .configFault, check := (judgeImage bytes).1, image := [] }

theorem exec_imageReadEnd {s : State} (bytes : List Byte) (reading : s.loader.phase = .reading) :
    exec (.imageReadEnd bytes) s = done (s.onLoader (Loader.judged bytes)) :=
  congrArg done (if_pos reading)

theorem Loader.judged_uptime (bytes : List Byte) (l : Loader) : (l.judged bytes).uptime = l.uptime := by
  unfold Loader.judged
  split <;> rfl

theorem Loader.judged_refused {bytes : List Byte} {r : CheckResult} (h : judgeImage bytes = (r, false)) (l : Loader) :
    (l.judged bytes).phase = .configFault ∧ (l.judged bytes).check = r ∧ (l.judged bytes).image = [] := by
  unfold Loader.judged
  rw [h]
  exact ⟨rfl, rfl, rfl⟩

theorem Loader.judged_accepted {bytes : List Byte} {r : CheckResult} (h : judgeImage bytes = (r, true)) (l : Loader) :
    (l.judged bytes).phase = .validating ∧ (l.judged bytes).check = r ∧ (l.judged bytes).image = bytes := by
  unfold Loader.judged
  rw [h]
  exact ⟨rfl, rfl, rfl⟩

theorem wordAt_drop (bs : List Byte) (start : Nat) : wordAt 255 (bs.drop start) 0 = wordAt 255 bs start := by
  unfold wordAt
  rw [byteAt_drop, byteAt_drop, Nat.add_zero, Nat.zero_add]

/-- A two-byte field holds a check value exactly where its number is the value's (R183, R184). -/
theorem toNat_eq_wordAt_iff (w : Word16) (bs : List Byte) (i : Nat) :
    w.toNat = wordAt 255 bs i ↔ w = BitVec.ofNat 16 (wordAt 255 bs i) := by
  rw [← BitVec.toNat_inj, BitVec.toNat_ofNat, Nat.mod_eq_of_lt (wordAt_lt bs (by decide) i)]

/-- Mark and length are judged first, then the check, then the node number (R176, R177). -/
theorem judgeImage_eq (bytes : List Byte) : judgeImage bytes =
    if wordAt 255 bytes 0 ≠ 0x3E91 ∨ wordAt 255 bytes 2 ≠ 2639 then (.readFailure, false)
    else if (checkBytes (bytes.take 2637)).toNat ≠ wordAt 255 bytes 2637 then (.mismatch, false)
    else if byteAt 255 bytes 4 = 0 ∨ 63 < byteAt 255 bytes 4 then (.good, false)
    else (.good, true) := by
  have number : decide (1 ≤ byteAt 255 bytes 4 ∧ byteAt 255 bytes 4 ≤ 63)
      = if byteAt 255 bytes 4 = 0 ∨ 63 < byteAt 255 bytes 4 then false else true := by
    split
    · exact decide_eq_false (by omega)
    · exact decide_eq_true (by omega)
  unfold judgeImage Config.imageMark Config.imageLength
  simp only [wordAt_drop, number, ne_eq, toNat_eq_wordAt_iff, apply_ite (Prod.mk CheckResult.good)]

theorem exec_uptimeTick {s : State} (running : s.loader.phase = .running) : exec .uptimeTick s =
    done (s.onLoader fun l => { l with uptime := (l.uptime + 1) % 2 ^ 32, uptimeMs := 0 }) :=
  congrArg done (if_pos (State.running_of_phase running))

/-! ### A change of one line's level (R125, R127) -/

/-- Where the debouncer runs, the stability timer runs from 0 exactly where the level departs from the debounced state. -/
theorem Line.change_running (active : Bool) (l : Line) : l.change true active =
    if l.level = active then l
    else ⟨active, l.debounced, if active = l.debounced then .stopped else .from 0⟩ := by
  simp [Line.change]

/-- A change of level is a change of one line of the port: RESET is always debounced, the others in RUNNING (R125, R127). -/
theorem exec_inputLevelChange (x : Input) (active : Bool) (s : State) :
    ∃ f : Port → Port, exec (.inputLevelChange x active) s = done (s.onPort f)
      ∧ (∀ y, (f s.port).line y =
          if y = x then (s.port.line x).change (s.isRunning || decide (x = .reset)) active else s.port.line y)
      ∧ f s.port = { s.port with
          req := (f s.port).req, confirm := (f s.port).confirm, stop := (f s.port).stop, prod := (f s.port).prod,
          reset := (f s.port).reset } := by
  cases x <;> refine ⟨_, rfl, fun y => ?_, rfl⟩
  all_goals cases y <;> simp [Port.line]

/-- What the driven lines leave of a port that differs in its inputs. -/
theorem SamePort.of_inputs {a p q : Port} (k : SamePort p q)
    (h : p = { a with req := p.req, confirm := p.confirm, stop := p.stop, prod := p.prod, reset := p.reset }) :
    SamePort { a with req := q.req, confirm := q.confirm, stop := q.stop, prod := q.prod, reset := q.reset } q := by
  unfold SamePort at *
  rw [k]
  exact congrArg (fun r : Port => { r with outputs := q.outputs, indicators := q.indicators }) h

end Sys2Proof.Machine

open Sys2Proof Sys2Proof.Machine

/-- Settles O6: the indicators are driven at the end of every step, each from its condition in the state left. -/
theorem indicatorsFollow : Obligations.IndicatorsFollow := by
  intro s t h
  obtain ⟨u, ht⟩ := step_finish h
  have driven : t.port.indicators = t.lights := by rw [ht, State.finish_indicators]
  rw [driven]
  exact ⟨t.lights_round, t.lights_operator, t.lights_fault, t.lights_link⟩

/-- Settles O21: either way into reset leaves the one held state. -/
theorem resetHoldsTheNode : Obligations.ResetHoldsTheNode := by
  intro c s h
  obtain ⟨u, hu⟩ : ∃ u, u = s.held s.port.reset.resetAtPowerUp := ⟨_, rfl⟩
  have run : exec c s = done u := hu ▸ exec_holds h
  have loader : u.loader = .start := by rw [hu]; rfl
  have held : u.loader.phase = .held := by rw [loader]; rfl
  have inert : u.finish.Inert := State.Inert.finish (hu ▸ s.held_inert _) (by rw [held]; decide)
  have port := u.finish_port
  have line (x : Input) : u.finish.port.line x
      = if x = .reset then s.port.reset.resetAtPowerUp else (s.port.line x).inReset := by
    rw [State.finish_line, hu, State.held_line]
  have reset : u.finish.port.reset = s.port.reset.resetAtPowerUp := line .reset
  refine ⟨u.finish, run, inert, (State.finish_loader u).trans loader, ?_, ?_, ?_, ?_, ?_, fun x => ?_, ?_, ?_⟩
  · rw [State.finish_pending, hu]
    rfl
  · rw [port, hu]
    rfl
  · rw [port, hu]
    rfl
  · rw [port, hu]
    rfl
  · rw [State.finish_indicators, State.lights_of_held (by rw [State.finish_loader, held])]
  · rw [line]
    split
    · next isReset => exact ⟨by rw [isReset]; rfl, fun other => absurd isReset other⟩
    · exact ⟨rfl, fun _ => ⟨rfl, rfl⟩⟩
  · rw [reset]
    rfl
  · rw [reset]
    rfl

/-- Settles O22: the falling edge changes RESET and the phase; the end of the read, by the four cases of the judgement. -/
theorem loaderReadsAndJudges : Obligations.LoaderReadsAndJudges := by
  refine ⟨fun s runs inactive held => ?_, fun bytes s reading => ?_⟩
  · have settled : s.port.reset.settled = ⟨false, false, .stopped⟩ := by rw [Line.settled, inactive]
    have frame := ((Untouched.onPort s fun p => { p with reset := p.reset.settled }).mono (more := [.loader, .port])
      (by decide)).trans ((Untouched.onLoader _ fun l => { l with phase := .reading }).mono (by decide))
    refine ⟨_, exec_resetFallingEdge runs inactive held, frame.finish, State.finish_loader _, ?_⟩
    rw [← settled]
    exact State.finish_samePort _
  · refine ⟨_, exec_imageReadEnd bytes reading, (Untouched.onLoader s _).finish, ?_, ?_⟩
    · rw [State.finish_loader]
      exact s.loader.judged_uptime bytes
    · rw [State.finish_loader, State.onLoader_loader]
      have judgement := judgeImage_eq bytes
      split_ifs at judgement ⊢
      · exact s.loader.judged_refused judgement
      · exact s.loader.judged_refused judgement
      · exact s.loader.judged_refused judgement
      · exact s.loader.judged_accepted judgement

/-- Settles O24: the tick counts in the loader alone, and a change of level is the change of one line. -/
theorem uptimeAndLineLevels : Obligations.UptimeAndLineLevels := by
  refine ⟨fun s running => ?_, fun s x active runs => ?_⟩
  · exact ⟨_, exec_uptimeTick running, (Untouched.onLoader s _).finish, State.finish_loader _⟩
  · obtain ⟨f, run, line, inputs⟩ := exec_inputLevelChange x active s
    have debounced : (s.isRunning || decide (x = .reset)) = true := by simpa [State.isRunning] using runs
    have lineT (y : Input) : (s.onPort f).finish.port.line y
        = if y = x then (s.port.line x).change true active else s.port.line y := by
      rw [State.finish_line, ← debounced]
      exact line y
    refine ⟨_, run, (Untouched.onPort s f).finish, fun y other => ?_, (State.finish_samePort _).of_inputs inputs, ?_⟩
    · rw [lineT, if_neg other]
    · rw [lineT, if_pos rfl, Line.change_running]

end

section
/-! The selector's choice and the beginning of an own frame (R134, R157 to R159): when nothing is chosen, how the chosen frame is
formed, and what the end of a command makes of the link controller and the selector. -/

namespace Sys2Proof.Machine

/-! ### The choice -/

theorem lowestWord_mem {l : List (SlotId × OwnCopy)} {x : SlotId × OwnCopy} (h : lowestWord l = some x) : x ∈ l := by
  induction l generalizing x with
  | nil => cases h
  | cons y rest ih =>
    unfold lowestWord at h
    split at h
    · cases h
      exact List.mem_cons_self
    · rename_i z hz
      split at h <;> cases h
      · exact List.mem_cons_of_mem _ (ih hz)
      · exact List.mem_cons_self

theorem lowestWord_eq_none {l : List (SlotId × OwnCopy)} (h : lowestWord l = none) : l = [] := by
  cases l with
  | nil => rfl
  | cons y rest =>
    unfold lowestWord at h
    split at h
    · cases h
    · split at h <;> cases h

/-- The round robin finds nothing only where both classes are empty (R159). -/
theorem roundRobin_eq_none {turn : Turn} {count weight : Nat} {mine other : Option (SlotId × OwnCopy)}
    (h : roundRobin turn count weight mine other = none) : mine = none ∧ other = none := by
  cases mine with
  | none =>
    cases other with
    | none => exact ⟨rfl, rfl⟩
    | some y => cases h
  | some x =>
    cases other with
    | none => cases h
    | some y =>
      unfold roundRobin at h
      dsimp only at h
      split at h <;> cases h

/-- What the round robin chooses is the frame of one of the classes (R159). -/
theorem roundRobin_frame {turn : Turn} {count weight : Nat} {mine other : Option (SlotId × OwnCopy)} {x : Choice}
    (h : roundRobin turn count weight mine other = some x) : mine = some (x.slot, x.frame) ∨ other = some (x.slot, x.frame) := by
  cases mine with
  | none =>
    cases other with
    | none => cases h
    | some y => cases h; exact .inr rfl
  | some z =>
    cases other with
    | none => cases h; exact .inl rfl
    | some y =>
      unfold roundRobin at h
      dsimp only at h
      split at h <;> cases h
      · exact .inl rfl
      · exact .inr rfl

/-- The frame is formed as its sender drives it: length and check from its word and payload (R133, R186). -/
def OwnCopy.Formed (f : OwnCopy) : Prop := f.length = BitVec.ofNat 4 f.payload.length ∧ f.check = frameCheck f.word f.payload

theorem sentFrame_formed (word : Word16) (payload : List Byte) : (sentFrame word payload).Formed := ⟨rfl, rfl⟩

section
variable {s : State}

theorem State.classA_formed {x : SlotId × OwnCopy} (h : x ∈ s.classA) : x.2.Formed := by
  rcases List.mem_append.1 h with own | product
  · split at own
    · rename_i c _
      obtain rfl := List.mem_singleton.1 own
      cases c <;> exact sentFrame_formed _ _
    · cases own
  · obtain ⟨i, -, hi⟩ := List.mem_filterMap.1 product
    obtain ⟨c, -, rfl⟩ := Option.map_eq_some_iff.1 hi
    cases c <;> exact sentFrame_formed _ _

theorem State.statusFrame_formed {f : OwnCopy} (h : s.statusFrame = some f) : f.Formed := by
  obtain ⟨bytes, -, rfl⟩ := Option.map_eq_some_iff.1 h
  exact sentFrame_formed _ _

theorem State.streamFrame_formed {f : OwnCopy} (h : s.streamFrame = some f) : f.Formed := by
  obtain ⟨x, -, rfl⟩ := Option.map_eq_some_iff.1 h
  exact sentFrame_formed _ _

/-- Class A empty, the choice is the round robin's between STATUS and the record stream, in one order or the other (R158, R159). -/
theorem State.choose_of_no_classA (h : lowestWord s.classA = none) : ∃ weight mine other,
    s.choose = roundRobin s.tx.turn s.tx.turnCount weight mine other
    ∧ (mine = s.statusFrame.map (SlotId.status, ·) ∧ other = s.streamFrame.map (SlotId.stream, ·)
      ∨ mine = s.streamFrame.map (SlotId.stream, ·) ∧ other = s.statusFrame.map (SlotId.status, ·)) := by
  unfold State.choose
  rw [h]
  dsimp only
  cases s.tx.turn with
  | b => exact ⟨_, _, _, rfl, .inl ⟨rfl, rfl⟩⟩
  | c => exact ⟨_, _, _, rfl, .inr ⟨rfl, rfl⟩⟩

theorem State.choose_formed {x : Choice} (h : s.choose = some x) : x.frame.Formed := by
  cases lowest : lowestWord s.classA with
  | some y =>
    unfold State.choose at h
    rw [lowest] at h
    cases h
    exact State.classA_formed (lowestWord_mem lowest)
  | none =>
    have status {f : SlotId × OwnCopy} (k : s.statusFrame.map (SlotId.status, ·) = some f) : f.2.Formed := by
      obtain ⟨g, hg, rfl⟩ := Option.map_eq_some_iff.1 k
      exact State.statusFrame_formed hg
    have stream {f : SlotId × OwnCopy} (k : s.streamFrame.map (SlotId.stream, ·) = some f) : f.2.Formed := by
      obtain ⟨g, hg, rfl⟩ := Option.map_eq_some_iff.1 k
      exact State.streamFrame_formed hg
    obtain ⟨weight, mine, other, e, classes⟩ := State.choose_of_no_classA lowest
    rcases roundRobin_frame (e.symm.trans h) with rfl | rfl
    · rcases classes with ⟨k, -⟩ | ⟨k, -⟩ <;> [exact status k.symm; exact stream k.symm]
    · rcases classes with ⟨-, k⟩ | ⟨-, k⟩ <;> [exact stream k.symm; exact status k.symm]

/-- Nothing is chosen only where nothing waits (R158, R159). -/
theorem State.nothing_waits (h : s.choose = none) :
    s.tx.own = none ∧ (∀ i : Fin 4, s.tx.product[i] = none) ∧ s.tx.status = none ∧ s.log.queue = [] := by
  cases lowest : lowestWord s.classA with
  | some y =>
    unfold State.choose at h
    rw [lowest] at h
    cases h
  | none =>
    obtain ⟨own, product⟩ := List.append_eq_nil_iff.1 (lowestWord_eq_none lowest)
    obtain ⟨weight, mine, other, e, classes⟩ := State.choose_of_no_classA lowest
    obtain ⟨rfl, rfl⟩ := roundRobin_eq_none (e.symm.trans h)
    have bc : s.statusFrame = none ∧ s.streamFrame = none := by
      rcases classes with ⟨k, l⟩ | ⟨k, l⟩
      · exact ⟨Option.map_eq_none_iff.1 k.symm, Option.map_eq_none_iff.1 l.symm⟩
      · exact ⟨Option.map_eq_none_iff.1 l.symm, Option.map_eq_none_iff.1 k.symm⟩
    refine ⟨?_, fun i => ?_, Option.map_eq_none_iff.1 bc.1, ?_⟩
    · cases k : s.tx.own with
      | none => rfl
      | some c => rw [k] at own; cases own
    · exact Option.map_eq_none_iff.1 (List.filterMap_eq_nil_iff.1 product i (List.mem_finRange i))
    · have stream : s.log.stream = none := Option.map_eq_none_iff.1 bc.2
      unfold Log.stream at stream
      split at stream
      · assumption
      · cases stream
end

/-! ### The frame begun -/

section
variable {s : State}

theorem State.mayOffer_iff : s.mayOffer = true ↔ s.FreeToOffer := by
  simp only [State.mayOffer, State.onLine, Bool.and_eq_true, decide_eq_true_eq, Bool.not_eq_true', State.isRunning_iff]
  constructor
  · rintro ⟨⟨⟨⟨phase, line⟩, medium, role⟩, holdBack⟩, copy⟩
    exact ⟨phase, line, medium, role, holdBack, copy⟩
  · rintro ⟨phase, line, medium, role, holdBack, copy⟩
    exact ⟨⟨⟨⟨phase, line⟩, medium, role⟩, holdBack⟩, copy⟩

/-- A choice becomes the own copy, and the node its sender (R134, R157). -/
def State.begun (s : State) (x : Choice) : State :=
  (s.onTx fun t => { t with
    copyFrom := some x.slot, marks := t.marks.put false x.slot, turn := x.turn, turnCount := x.count }).onLink fun l =>
      { l with copy := some x.frame, role := .sender, medium := .busy, holdOffMoved := false }

theorem Marks.get_put (m : Marks) (v : Bool) (slot : SlotId) : (m.put v slot).get slot = v := by
  cases slot with
  | product i => exact (modAt_get m.product i i fun _ => v).trans (if_pos rfl)
  | own => rfl
  | status => rfl
  | stream => rfl

/-- At the end of a command the choice is begun where nothing bars an offer; else link controller and selector stay (R157). -/
theorem State.finish_of_choice {x : Choice} (free : s.FreeToOffer) (choice : s.choose = some x) : s.finish = (s.begun x).drive := by
  unfold State.finish State.offer
  rw [if_pos (State.mayOffer_iff.2 free), choice]
  rfl
theorem State.finish_of_none (h : ¬ s.FreeToOffer ∨ s.choose = none) : s.finish = s.drive := by
  unfold State.finish State.offer
  split
  · rename_i may
    rw [h.resolve_left (not_not_intro (State.mayOffer_iff.1 may))]
  · rfl

/-- A node that is free to offer after a command found nothing that waits: what waits would have been begun (R157). -/
theorem State.free_after_finish (h : s.finish.FreeToOffer) : s.choose = none := by
  by_contra waits
  obtain ⟨x, hx⟩ := Option.ne_none_iff_exists'.1 waits
  by_cases free : s.FreeToOffer
  · rw [State.finish_of_choice free hx] at h
    cases h.role
  · rw [State.finish_of_none (.inl free)] at h
    exact free ⟨h.phase, h.state, h.medium, h.role, h.holdBack, h.copy⟩
end

/-! ### The commands of the medium (R134, R135, R137, R161) -/

section
variable {s : State} (running : s.loader.phase = .running)
include running

theorem exec_mediumIdle (role : s.link.role = .none) (state : s.link.state ≠ .barred) :
    exec .mediumIdle s = done (s.onLink fun l => { l with medium := .idle }) :=
  congrArg done (if_pos ⟨s.running_of_phase running, role, state⟩)
theorem exec_peerStartField (medium : s.link.medium = .idle) (state : s.link.state ≠ .barred) :
    exec .peerStartField s = done (s.onLink fun l => { l with medium := .busy, role := .receiver, holdOffMoved := false }) :=
  congrArg done (if_pos ⟨s.running_of_phase running, medium, state⟩)
end

theorem exec_holdBackExpiry {s : State} (on : s.tx.holdBack.on = true) :
    exec .holdBackExpiry s = done (s.onTx fun t => { t with holdBack := .stopped }) := congrArg done (if_pos on)

/-- The sender of the frame on the medium gives it up and receives (R135, R136). -/
def State.outbid (s : State) : State :=
  (s.onLink fun l => { l with role := .receiver, copy := none }).onTx fun t => { t with copyFrom := none }

theorem Untouched.outbid (s : State) : Untouched [.link, .tx] s s.outbid := by
  unfold State.outbid
  exact ((Untouched.onLink s _).mono (by decide)).trans ((Untouched.onTx _ _).mono (by decide))

theorem exec_arbitrationLost {s : State} (running : s.loader.phase = .running) (role : s.link.role = .sender) :
    exec .arbitrationLost s = done s.outbid := congrArg done (if_pos (State.sending_of_role running role))

end Sys2Proof.Machine

open Sys2Proof Sys2Proof.Machine

/-- Settles O44: the end of a command begins the choice where it is free to, and a receiver is not. -/
theorem mediumAndChoice : Obligations.MediumAndChoice := by
  refine ⟨fun c s u running cause => ?_, fun c s t e free => ?_, fun s running medium state => ?_, fun s running role => ?_⟩
  · have effect : exec c s = done u ∧ Untouched [.link, .tx] s u ∧ SameLink s.link u.link := by
      rcases cause with ⟨rfl, role, state, rfl⟩ | ⟨rfl, on, rfl⟩
      · exact ⟨exec_mediumIdle running role state, (Untouched.onLink s fun l => { l with medium := .idle }).mono (by decide), rfl⟩
      · exact ⟨exec_holdBackExpiry on, (Untouched.onTx s fun t => { t with holdBack := .stopped }).mono (by decide), .refl _⟩
    obtain ⟨run, frame, link⟩ := effect
    refine ⟨_, run, frame.finish, link.trans u.finish_sameLink, u.finish_sameTx, fun h => ?_, fun x free choice => ?_⟩
    · rw [State.finish_of_none h]
      exact ⟨rfl, rfl⟩
    · obtain ⟨length, check⟩ := State.choose_formed choice
      rw [State.finish_of_choice free choice]
      exact ⟨rfl, length, check, rfl, Marks.get_put _ _ _, rfl, rfl⟩
  · obtain ⟨u, hu⟩ := exec_done c s
    obtain rfl := done_next (hu.symm.trans e)
    obtain ⟨own, product, status, queue⟩ := State.nothing_waits (State.free_after_finish free)
    rw [State.finish_own, State.finish_product, State.finish_status, State.finish_log]
    exact ⟨own, product, status, queue⟩
  · exact ⟨_, exec_peerStartField running medium state, (Untouched.onLink s _).finish, State.finish_link_busy _ rfl⟩
  · have still : ¬ s.outbid.FreeToOffer := fun free => nomatch free.role
    refine ⟨_, exec_arbitrationLost running role, (Untouched.outbid s).finish, ?_⟩
    rw [State.finish_of_none (.inl still)]
    exact ⟨rfl, rfl⟩

end

section
/-! What no operation of the round, of the admission unit and of the list controller touches: the link state, the error counts, the
medium and the own copy (R132, R155). One lemma for each operation. -/

namespace Sys2Proof.Machine

/-- The link controller's state, counts and part in the frame on the medium, and the selector's record of the own copy (R132, R155). -/
structure LinkView where
  state : LinkState
  tec : Nat
  recCount : Nat
  medium : Medium
  copy : Option OwnCopy
  role : LinkRole
  place : Option SlotId

/-- The view of the link that a state gives. -/
def State.linkView (s : State) : LinkView :=
  ⟨s.link.state, s.link.tec, s.link.recCount, s.link.medium, s.link.copy, s.link.role, s.tx.copyFrom⟩

theorem State.linkView_eq {s t : State} (h : t.linkView = s.linkView) :
    t.link.state = s.link.state ∧ t.link.tec = s.link.tec ∧ t.link.recCount = s.link.recCount ∧ t.link.medium = s.link.medium
      ∧ t.link.copy = s.link.copy ∧ t.link.role = s.link.role ∧ t.tx.copyFrom = s.tx.copyFrom := by
  simpa [State.linkView] using h

/-- What is steady leaves the view of the link. -/
theorem Steady.linkView {s t : State} (h : Steady s t) : t.linkView = s.linkView := by
  unfold State.linkView
  rw [h.link, h.copy]

section
variable (s : State)
@[simp] theorem State.linkView_onLoader (f) : (s.onLoader f).linkView = s.linkView := rfl
@[simp] theorem State.linkView_onBoard (f) : (s.onBoard f).linkView = s.linkView := rfl
@[simp] theorem State.linkView_onUpdates (f) : (s.onUpdates f).linkView = s.linkView := rfl
@[simp] theorem State.linkView_onAdm (f) : (s.onAdm f).linkView = s.linkView := rfl
@[simp] theorem State.linkView_onSeq (f) : (s.onSeq f).linkView = s.linkView := rfl
@[simp] theorem State.linkView_onVer (f) : (s.onVer f).linkView = s.linkView := rfl
@[simp] theorem State.linkView_onPort (f) : (s.onPort f).linkView = s.linkView := rfl
@[simp] theorem State.linkView_onLog (f) : (s.onLog f).linkView = s.linkView := rfl
end

/-! ### Ops and Flags -/

section
variable (s : State)
@[simp] theorem State.linkView_sticky (f) : (s.sticky f).linkView = s.linkView := rfl
@[simp] theorem State.linkView_stickyIf (c f) : (s.stickyIf c f).linkView = s.linkView := ((Steady.refl s).stickyIf c f).linkView
@[simp] theorem State.linkView_placeOwn (c) : (s.placeOwn c).linkView = s.linkView := ((Steady.refl s).placeOwn c).linkView
@[simp] theorem State.linkView_placeProduct (i c) : (s.placeProduct i c).linkView = s.linkView :=
  ((Steady.refl s).placeProduct i c).linkView
@[simp] theorem State.linkView_makeStatus : s.makeStatus.linkView = s.linkView := (Steady.refl s).makeStatus.linkView
@[simp] theorem State.linkView_setRound (r) : (s.setRound r).linkView = s.linkView := ((Steady.refl s).setRound r).linkView
@[simp] theorem State.linkView_enqueue (o) : (s.enqueue o).linkView = s.linkView := ((Steady.refl s).enqueue o).linkView
@[simp] theorem State.linkView_dequeue : s.dequeue.linkView = s.linkView := by unfold State.dequeue; dsimp only; split <;> rfl
@[simp] theorem State.linkView_placeOp (o) : (s.placeOp o).linkView = s.linkView := ((Steady.refl s).placeOp o).linkView
@[simp] theorem State.linkView_opDone : s.opDone.linkView = s.linkView := by unfold State.opDone; split <;> simp
@[simp] theorem State.linkView_takeRecord : s.takeRecord.linkView = s.linkView := (Steady.refl s).takeRecord.linkView
end

/-! ### Admission -/

section
variable (s : State)
@[simp] theorem State.linkView_requestEval (b) : (s.requestEval b).linkView = s.linkView := ((Steady.refl s).requestEval b).linkView
@[simp] theorem State.linkView_enterRunning : s.enterRunning.linkView = s.linkView := (Steady.refl s).enterRunning.linkView
@[simp] theorem State.linkView_reportWaiting : s.reportWaiting.linkView = s.linkView := (Steady.refl s).reportWaiting.linkView
@[simp] theorem State.linkView_reportClaiming : s.reportClaiming.linkView = s.linkView := by
  unfold State.reportClaiming; split <;> [(split <;> simp); rfl]
@[simp] theorem State.linkView_reportRunning : s.reportRunning.linkView = s.linkView := by
  unfold State.reportRunning; split <;> [(split <;> simp); rfl]
@[simp] theorem State.linkView_receiveRequest (p g) : (s.receiveRequest p g).linkView = s.linkView :=
  ((Steady.refl s).receiveRequest p g).linkView
@[simp] theorem State.linkView_takeRequest : s.takeRequest.linkView = s.linkView := (Steady.refl s).takeRequest.linkView
@[simp] theorem State.linkView_placeAnnounce (st l) : (s.placeAnnounce st l).linkView = s.linkView :=
  ((Steady.refl s).placeAnnounce st l).linkView
@[simp] theorem State.linkView_chainRequest (p g) : (s.chainRequest p g).linkView = s.linkView := by
  unfold State.chainRequest; split <;> simp
end

/-! ### Rounds -/

section
variable (s : State)
@[simp] theorem State.linkView_openAttempt (i) : (s.openAttempt i).linkView = s.linkView := rfl
@[simp] theorem State.linkView_proceed : s.proceed.linkView = s.linkView := (Steady.refl s).proceed.linkView
@[simp] theorem State.linkView_enterStep (i c) : (s.enterStep i c).linkView = s.linkView := ((Steady.refl s).enterStep i c).linkView
@[simp] theorem State.linkView_enterChained (i) : (s.enterChained i).linkView = s.linkView := by simp [State.enterChained]
@[simp] theorem State.linkView_endAttempt (o) : (s.endAttempt o).linkView = s.linkView := ((Steady.refl s).endAttempt o).linkView
@[simp] theorem State.linkView_releaseIfClaims : s.releaseIfClaims.linkView = s.linkView := (Steady.refl s).releaseIfClaims.linkView
@[simp] theorem State.linkView_takePending : s.takePending.linkView = s.linkView := (Steady.refl s).takePending.linkView
@[simp] theorem State.linkView_roundRequest (i e) : (s.roundRequest i e).linkView = s.linkView := by
  unfold State.roundRequest; split <;> simp
@[simp] theorem State.linkView_recordTaken : s.recordTaken.linkView = s.linkView := (Steady.refl s).recordTaken.linkView
@[simp] theorem State.linkView_completeRecord (o) : (s.completeRecord o).linkView = s.linkView := rfl
@[simp] theorem State.linkView_closeRound (o) : (s.closeRound o).linkView = s.linkView := by simp [State.closeRound]
@[simp] theorem State.linkView_cutRound (o) : (s.cutRound o).linkView = s.linkView := by unfold State.cutRound; split <;> simp
@[simp] theorem State.linkView_suspend (c) : (s.suspend c).linkView = s.linkView := ((Steady.refl s).suspend c).linkView
@[simp] theorem State.linkView_resumeRound (b) : (s.resumeRound b).linkView = s.linkView := by
  unfold State.resumeRound; split <;> simp
@[simp] theorem State.linkView_attemptDone : s.attemptDone.linkView = s.linkView := by
  unfold State.attemptDone; dsimp only; split <;> [simp; (split <;> simp)]
@[simp] theorem State.linkView_burstComplete : s.burstComplete.linkView = s.linkView := by
  unfold State.burstComplete; split <;> [(split <;> [(dsimp only; split <;> simp); simp]); rfl]
@[simp] theorem State.linkView_sensorLostReport : s.sensorLostReport.linkView = s.linkView := by
  unfold State.sensorLostReport; split <;> simp
@[simp] theorem State.linkView_takeSample (x) : (s.takeSample x).linkView = s.linkView := by
  unfold State.takeSample; dsimp only; split <;> simp
@[simp] theorem State.linkView_validReply (b) : (s.validReply b).linkView = s.linkView := by simp [State.validReply]
@[simp] theorem State.linkView_noReply : s.noReply.linkView = s.linkView := by simp [State.noReply]
@[simp] theorem State.linkView_confirmEdge : s.confirmEdge.linkView = s.linkView := by unfold State.confirmEdge; split <;> simp
@[simp] theorem State.linkView_stopActive : s.stopActive.linkView = s.linkView := by simp [State.stopActive]
@[simp] theorem State.linkView_seqBarred : s.seqBarred.linkView = s.linkView := by
  unfold State.seqBarred; dsimp only; split <;> simp
end

/-! ### The admission unit -/

section
variable (s : State)
@[simp] theorem State.linkView_updateOwn (st) : (s.updateOwn st).linkView = s.linkView := by simp [State.updateOwn]
@[simp] theorem State.linkView_claim : s.claim.linkView = s.linkView := by simp [State.claim]
@[simp] theorem State.linkView_stayWaiting : s.stayWaiting.linkView = s.linkView := by unfold State.stayWaiting; split <;> simp
@[simp] theorem State.linkView_yieldStep : s.yieldStep.linkView = s.linkView := (Steady.refl s).yieldStep.linkView
@[simp] theorem State.linkView_runPending : s.runPending.linkView = s.linkView := by simp [State.runPending]
@[simp] theorem State.linkView_lapseRunPending : s.lapseRunPending.linkView = s.linkView := by simp [State.lapseRunPending]
@[simp] theorem State.linkView_ageStep : s.ageStep.linkView = s.linkView := by
  unfold State.ageStep; dsimp only; rw [State.linkView_requestEval]; split <;> simp
@[simp] theorem State.linkView_stopRun (c) : (s.stopRun c).linkView = s.linkView := ((Steady.refl s).stopRun c).linkView
@[simp] theorem State.linkView_actVerdict (v) : (s.actVerdict v).linkView = s.linkView := by
  unfold State.actVerdict; split <;> [(split <;> simp); rfl]
@[simp] theorem State.linkView_notice (l) : (s.notice l).linkView = s.linkView := by unfold State.notice; split <;> simp
@[simp] theorem State.linkView_hallResult (l) : (s.hallResult l).linkView = s.linkView := by simp [State.hallResult]
@[simp] theorem State.linkView_ownResult (l) : (s.ownResult l).linkView = s.linkView := by simp [State.ownResult]
@[simp] theorem State.linkView_updateResult (st l) : (s.updateResult st l).linkView = s.linkView := by
  unfold State.updateResult; dsimp only; split <;> [(split <;> simp); simp]
@[simp] theorem State.linkView_actOutcome (o b) : (s.actOutcome o b).linkView = s.linkView := by
  unfold State.actOutcome
  split <;> [rfl; rfl; (split <;> simp); (split <;> [(split <;> simp); simp]); (split <;> simp)]
@[simp] theorem State.linkView_requestWanted : s.requestWanted.linkView = s.linkView := by
  unfold State.requestWanted; split <;> simp
@[simp] theorem State.linkView_outcome (o) : (s.outcome o).linkView = s.linkView := by
  unfold State.outcome; dsimp only; rw [State.linkView_requestWanted]; split <;> [(split <;> simp); simp]
@[simp] theorem State.linkView_placeHold (i r) : (s.placeHold i r).linkView = s.linkView := by simp [State.placeHold]
@[simp] theorem State.linkView_judgeHold (i) : (s.judgeHold i).linkView = s.linkView := by
  unfold State.judgeHold State.beginHold State.endHold
  split <;> [rfl; (split <;> [(split <;> [simp; (split <;> simp)]); rfl])]
@[simp] theorem State.linkView_judgeHolds : s.judgeHolds.linkView = s.linkView :=
  List.foldlRecOn (motive := fun t : State => t.linkView = s.linkView) allFour State.judgeHold rfl fun t h i _ => by simpa using h
@[simp] theorem State.linkView_admEngaged : s.admEngaged.linkView = s.linkView := (Steady.refl s).admEngaged.linkView
@[simp] theorem State.linkView_admDetached : s.admDetached.linkView = s.linkView := (Steady.refl s).admDetached.linkView
end

/-! ### The list controller and what a frame hands on -/

section
variable (s : State)
@[simp] theorem State.linkView_carryAnnouncement (a) : (s.carryAnnouncement a).linkView = s.linkView := by
  unfold State.carryAnnouncement; split <;> simp
@[simp] theorem State.linkView_carryRelease (o r w) : (s.carryRelease o r w).linkView = s.linkView := by
  unfold State.carryRelease; dsimp only; split <;> simp
@[simp] theorem State.linkView_carryInhibit (v w) : (s.carryInhibit v w).linkView = s.linkView := by simp [State.carryInhibit]
@[simp] theorem State.linkView_carryInsert (r p k st) : (s.carryInsert r p k st).linkView = s.linkView := by
  simp [State.carryInsert]
@[simp] theorem State.linkView_carryUpdate (r p k st) : (s.carryUpdate r p k st).linkView = s.linkView := by
  simp [State.carryUpdate]
@[simp] theorem State.linkView_carryRemove (r rs) : (s.carryRemove r rs).linkView = s.linkView := by simp [State.carryRemove]
@[simp] theorem State.linkView_carryEvaluate : s.carryEvaluate.linkView = s.linkView := by simp [State.carryEvaluate]
@[simp] theorem State.linkView_command (c) : (s.command c).linkView = s.linkView := by unfold State.command; split <;> simp
@[simp] theorem State.linkView_enqueueIf (o) : (s.enqueueIf o).linkView = s.linkView := by unfold State.enqueueIf; split <;> simp
@[simp] theorem State.linkView_handOn (k f) : (s.handOn k f).linkView = s.linkView := by
  unfold State.handOn; split <;> [simp; simp; simp; simp; (split <;> simp); rfl]
end

end Sys2Proof.Machine
end

section
/-! What every command keeps of the link controller (R132, R134, R143, R145, R148, R155, R162): the agreement of counts and link state,
the agreement of own copy, sender's role and selector, and BARRED. -/

namespace Sys2Proof.Machine

/-! ### The properties -/

section
variable {s t : State}

theorem Link.CountsFit.congr (h : t.linkView = s.linkView) (fits : s.link.CountsFit) : t.link.CountsFit := by
  obtain ⟨state, tec, rec', -⟩ := State.linkView_eq h
  obtain ⟨h1, h2, h3, h4⟩ := fits
  constructor
  · rwa [tec]
  · rwa [rec']
  · rwa [state, tec, rec']
  · rwa [state, tec]

theorem State.CopyFits.congr (h : t.linkView = s.linkView) (fits : s.CopyFits) : t.CopyFits := by
  obtain ⟨state, -, -, medium, copy, role, place⟩ := State.linkView_eq h
  obtain ⟨h1, h2, h3, h4, h5⟩ := fits
  constructor
  · rwa [role, copy]
  · rwa [copy, place]
  · rwa [role, medium]
  · rwa [state, role]
  · rwa [onLine_congr state, role]

/-- A node with no part in a frame, and no copy on the medium. -/
theorem State.CopyFits.of_apart (role : t.link.role = .none) (copy : t.link.copy = none) (place : t.tx.copyFrom = none) : t.CopyFits := by
  constructor <;> simp [role, copy, place]

/-- A receiver, which has no copy on the medium. -/
theorem State.CopyFits.of_receiver (role : t.link.role = .receiver) (copy : t.link.copy = none) (place : t.tx.copyFrom = none)
    (medium : t.link.medium = .busy) (state : t.link.state ≠ .barred) : t.CopyFits := by
  constructor <;> simp [role, copy, place, medium, state]

/-- A node that does not send has no copy on the medium. -/
theorem State.CopyFits.no_copy (fits : s.CopyFits) (role : s.link.role ≠ .sender) : s.link.copy = none ∧ s.tx.copyFrom = none := by
  have copy : s.link.copy = none := Option.not_isSome_iff_eq_none.1 fun k => role (fits.sender.2 k)
  refine ⟨copy, Option.not_isSome_iff_eq_none.1 fun k => ?_⟩
  have := fits.copy.2 k
  rw [copy] at this
  cases this
end

/-! ### The judgement of the counts (R143) -/

/-- The link state that the counts call for, in the order of R143. -/
def Link.judged (l : Link) : LinkState :=
  if (l.state = .engaged ∨ l.state = .reticent) ∧ 192 ≤ l.tec then .detached
  else if l.state = .engaged ∧ (96 ≤ l.tec ∨ 96 ≤ l.recCount) then .reticent
  else if l.state = .reticent ∧ l.tec < 80 ∧ l.recCount < 80 then .engaged
  else l.state

/-- Judging moves the link state alone. -/
theorem State.judgeLink_view (s : State) : s.judgeLink.linkView = { s.linkView with state := s.link.judged } := by
  unfold State.judgeLink Link.judged
  simp only [State.onLine, decide_eq_true_eq]
  split_ifs
  · exact ((Steady.refl _).seqDetached.admDetached).linkView
  · exact (((Steady.refl _).sticky _).admReticent).linkView
  · exact ((Steady.refl _).admEngaged).linkView
  · rfl

/-- After its judgement the link state agrees with the counts, and BARRED is neither left nor entered. -/
theorem Link.judged_cases (l : Link) : (l.judged = .engaged → l.tec < 96 ∧ l.recCount < 96) ∧ (l.judged = .reticent → l.tec < 192)
    ∧ (l.judged = .barred ↔ l.state = .barred) := by
  unfold Link.judged
  split_ifs with detaches rises falls
  · exact ⟨nofun, nofun, iff_of_false nofun fun barred => by simp [barred] at detaches⟩
  · have low : ¬ 192 ≤ l.tec := fun high => detaches ⟨.inl rises.1, high⟩
    exact ⟨nofun, fun _ => by omega, iff_of_false nofun (by simp [rises.1])⟩
  · exact ⟨fun _ => by omega, nofun, iff_of_false nofun (by simp [falls.1])⟩
  · refine ⟨fun engaged => ?_, fun reticent => ?_, .rfl⟩
    · simp only [engaged, true_and] at rises
      omega
    · simp only [reticent, or_true, true_and] at detaches
      omega

/-- The counts have moved and the link state is judged; the node's part in the frame is as it was. -/
structure Recounted (s t : State) : Prop where
  medium : t.link.medium = s.link.medium
  copy : t.link.copy = s.link.copy
  role : t.link.role = s.link.role
  place : t.tx.copyFrom = s.tx.copyFrom
  counts : s.link.CountsFit → t.link.CountsFit
  barred : t.link.state = .barred ↔ s.link.state = .barred

theorem Recounted.refl (s : State) : Recounted s s := ⟨rfl, rfl, rfl, rfl, id, .rfl⟩

section
variable (s : State)

theorem State.moveCounts_recounted {a b : Nat} (bound : s.link.CountsFit → a ≤ 255 ∧ b ≤ 255) : Recounted s (s.moveCounts a b) := by
  unfold State.moveCounts
  split
  · exact .refl s
  · obtain ⟨v, hv⟩ : ∃ v, v = s.onLink fun l => { l with tec := a, recCount := b } := ⟨_, rfl⟩
    rw [← hv]
    have view := v.judgeLink_view
    simp only [State.linkView, LinkView.mk.injEq] at view
    obtain ⟨state, tec, rec', medium, copy, role, place⟩ := view
    obtain ⟨engaged, reticent, barred⟩ := v.link.judged_cases
    subst hv
    refine ⟨medium, copy, role, place, fun fits => ?_, state ▸ barred⟩
    obtain ⟨ha, hb⟩ := bound fits
    constructor
    · rw [tec]; exact ha
    · rw [rec']; exact hb
    · rw [state, tec, rec']; exact engaged
    · rw [state, tec]; exact reticent

theorem State.tecUp_recounted : Recounted s s.tecUp := s.moveCounts_recounted fun fits => ⟨Nat.min_le_right _ _, fits.rec_⟩
theorem State.tecDown_recounted : Recounted s s.tecDown :=
  s.moveCounts_recounted fun fits => ⟨(Nat.sub_le _ _).trans fits.tec, fits.rec_⟩
theorem State.recUp_recounted : Recounted s s.recUp := s.moveCounts_recounted fun fits => ⟨fits.tec, Nat.min_le_right _ _⟩
theorem State.recDown_recounted : Recounted s s.recDown :=
  s.moveCounts_recounted fun fits => ⟨fits.tec, (Nat.sub_le _ _).trans fits.rec_⟩
theorem State.tecMove_recounted (o : CopyOutcome) : Recounted s (s.tecMove o) := by
  cases o with
  | delivered => exact s.tecDown_recounted
  | rejected => exact s.tecUp_recounted
  | unanswered => exact s.tecUp_recounted
  | held => exact .refl s
end

/-! ### The end of a frame -/

/-- The node's part in a frame has ended, its copy with it (R133, R134). -/
structure PartEnds (s t : State) : Prop where
  part : s.link.role ≠ .none
  role : t.link.role = .none
  copy : t.link.copy = none
  place : s.CopyFits → t.tx.copyFrom = none
  counts : s.link.CountsFit → t.link.CountsFit
  barred : s.link.state = .barred → t.link.state = .barred

section
variable {s t u : State}

theorem PartEnds.frameOver (receiver : s.link.role = .receiver) (a) : PartEnds s (s.frameOver a) where
  part := by rw [receiver]; decide
  role := rfl
  copy := rfl
  place fits := (fits.no_copy (by rw [receiver]; decide)).2
  counts fits := ⟨fits.tec, fits.rec_, fits.engaged, fits.reticent⟩
  barred := id

section
variable (h : PartEnds s t)
include h

theorem PartEnds.recounted (k : Recounted t u) : PartEnds s u :=
  ⟨h.part, k.role.trans h.role, k.copy.trans h.copy, fun fits => k.place.trans (h.place fits), fun fits => k.counts (h.counts fits),
    fun barred => k.barred.2 (h.barred barred)⟩
theorem PartEnds.keep (view : u.linkView = t.linkView) : PartEnds s u := by
  obtain ⟨state, -, -, medium, copy, role, place⟩ := State.linkView_eq view
  exact h.recounted ⟨medium, copy, role, place, .congr view, by rw [state]⟩
theorem PartEnds.enterBarred : PartEnds s t.enterBarred := by
  have barred : PartEnds s ((t.onLink fun l => { l with state := .barred, quiet := .stopped, role := .none }).onTx
      fun x => { x with holdBack := .stopped }) :=
    ⟨h.part, rfl, h.copy, h.place, fun fits => ⟨(h.counts fits).tec, (h.counts fits).rec_, nofun, nofun⟩, fun _ => rfl⟩
  exact barred.keep (by simp [State.enterBarred])
theorem PartEnds.deliveredFrame (kind f) : PartEnds s (t.deliveredFrame kind f) := by
  unfold State.deliveredFrame
  have lowered := h.recounted t.recDown_recounted
  split
  · exact h.enterBarred
  · split
    · dsimp only
      split <;> [exact lowered.keep (State.linkView_handOn _ _ _); exact lowered]
    · exact h
end

/-- A receiver whose check failed, or that takes a whole frame, has no part in it any more. -/
theorem State.checkFailed_ends (receiver : s.link.role = .receiver) (a) : PartEnds s (s.checkFailed a) := by
  have ended := PartEnds.frameOver receiver a
  unfold State.checkFailed
  dsimp only
  split
  · exact ended.recounted (State.recUp_recounted _)
  · exact ended.recounted (State.recUp_recounted _)
  · exact ended.keep rfl
  · exact ended
theorem State.receiveFrame_ends (kind f) : PartEnds s (s.receiveFrame kind f) ∨ s.receiveFrame kind f = s := by
  unfold State.receiveFrame
  split
  · rename_i hears
    have ended := PartEnds.frameOver hears.2 (s.answerTo kind f)
    left
    split
    · dsimp only
      split <;> [exact ended.deliveredFrame kind f; exact ended]
    · exact State.checkFailed_ends hears.2 _
  · exact .inr rfl

/-- Whatever the outcome, an own copy's end leaves no record of it in the selector (R160). -/
theorem State.handOutcome_view (s : State) (o : CopyOutcome) : (s.handOutcome o).linkView = { s.linkView with place := none } := by
  cases from' : s.tx.copyFrom with
  | none =>
    have stays : s.handOutcome o = s := by
      unfold State.handOutcome
      rw [from']
    rw [stays, State.linkView, from']
  | some slot =>
    obtain ⟨place, link⟩ := State.handOutcome_over from' o
    rw [State.linkView, place, link]
    rfl
theorem State.ownFrame_ends (sender : s.link.role = .sender) (o) : PartEnds s (((s.frameOver none).tecMove o).handOutcome o) := by
  obtain ⟨v, hv⟩ : ∃ v, v = (s.frameOver none).tecMove o := ⟨_, rfl⟩
  have moved : Recounted (s.frameOver none) v := hv ▸ State.tecMove_recounted _ o
  have view := v.handOutcome_view o
  rw [← hv]
  simp only [State.linkView, LinkView.mk.injEq] at view
  obtain ⟨state, tec, rec', -, copy, role, place⟩ := view
  refine ⟨by rw [sender]; decide, role.trans moved.role, copy.trans moved.copy, fun _ => place, fun fits => ?_,
    fun barred => state.trans (moved.barred.2 barred)⟩
  obtain ⟨h1, h2, h3, h4⟩ := moved.counts ⟨fits.tec, fits.rec_, fits.engaged, fits.reticent⟩
  exact ⟨by rwa [tec], by rwa [rec'], by rwa [state, tec, rec'], by rwa [state, tec]⟩
end

/-! ### What a command keeps -/

/-- What a command keeps of the link controller: the agreement of counts and link state, that of copy, role and selector, BARRED, and
there, for a node with no part in a frame, role and counts. -/
structure LinkKept (s t : State) : Prop where
  counts : s.link.CountsFit → t.link.CountsFit
  copy : s.CopyFits → t.CopyFits
  barred : s.link.state = .barred → t.link.state = .barred
  apart : s.link.state = .barred → s.link.role = .none →
    t.link.role = .none ∧ t.link.tec = s.link.tec ∧ t.link.recCount = s.link.recCount

section
variable {s t : State}

theorem LinkKept.of_view (h : t.linkView = s.linkView) : LinkKept s t := by
  obtain ⟨state, tec, rec', -, -, role, -⟩ := State.linkView_eq h
  exact ⟨.congr h, .congr h, state.trans, fun _ none => ⟨role.trans none, tec, rec'⟩⟩
theorem LinkKept.refl (s : State) : LinkKept s s := .of_view rfl
theorem PartEnds.kept (h : PartEnds s t) : LinkKept s t :=
  ⟨h.counts, fun fits => .of_apart h.role h.copy (h.place fits), h.barred, fun _ none => absurd none h.part⟩

/-- A sender that gives up its frame, its counts then moving or not, receives the frame that beat it (R135, R136). -/
theorem LinkKept.outbid (sender : s.link.role = .sender) (h : Recounted s.outbid t) : LinkKept s t where
  counts fits := h.counts ⟨fits.tec, fits.rec_, fits.engaged, fits.reticent⟩
  copy fits := .of_receiver h.role h.copy h.place (h.medium.trans (fits.busy (by rw [sender]; decide)))
    fun barred => by have := fits.barred (h.barred.1 barred); rw [sender] at this; cases this
  barred := h.barred.2
  apart _ none := by rw [sender] at none; cases none

/-- The medium is found idle by a node with no part in a frame (R134). -/
theorem LinkKept.mediumIdle (role : s.link.role = .none) : LinkKept s (s.onLink fun l => { l with medium := .idle }) where
  counts fits := ⟨fits.tec, fits.rec_, fits.engaged, fits.reticent⟩
  copy fits := by
    obtain ⟨copy, place⟩ := fits.no_copy (by rw [role]; decide)
    exact .of_apart role copy place
  barred := id
  apart _ none := ⟨none, rfl, rfl⟩

/-- A start field on an idle medium finds a node with no part in a frame (R134, R137). -/
theorem LinkKept.peerStartField (medium : s.link.medium = .idle) (state : s.link.state ≠ .barred) :
    LinkKept s (s.onLink fun l => { l with medium := .busy, role := .receiver, holdOffMoved := false }) where
  counts fits := ⟨fits.tec, fits.rec_, fits.engaged, fits.reticent⟩
  copy fits := by
    obtain ⟨copy, place⟩ := fits.no_copy fun sender => by have := fits.busy (by rw [sender]; decide); rw [medium] at this; cases this
    exact .of_receiver rfl copy place rfl state
  barred := id
  apart barred := absurd barred state

/-- Counts of 0 agree with every link state (R132, R146). -/
theorem Link.CountsFit.of_zero {l : Link} (tec : l.tec = 0) (rec' : l.recCount = 0) : l.CountsFit := by
  constructor <;> simp [tec, rec']

/-- A node that rejoins had no copy on the medium (R146, R162). -/
theorem LinkKept.rejoined (detached : s.link.state = .detached) (h : t.linkView = s.rejoined.linkView) : LinkKept s t := by
  obtain ⟨state, tec, rec', -, copy, role, place⟩ := State.linkView_eq h
  have silent : s.onLine = false := by simp [State.onLine, detached]
  refine ⟨fun _ => .of_zero tec rec', fun fits => ?_, fun barred => ?_, fun barred => ?_⟩
  · exact .of_apart role copy (place.trans (fits.no_copy (fits.silent silent)).2)
  all_goals rw [detached] at barred; cases barred

/-- The end of a command keeps both agreements, as a node begins a frame only on the line, and leaves a BARRED node alone (R157). -/
theorem Link.CountsFit.finish (fits : t.link.CountsFit) : t.finish.link.CountsFit := by
  obtain ⟨h1, h2, h3, h4⟩ := fits
  constructor <;> simpa
theorem State.CopyFits.finish (fits : t.CopyFits) : t.finish.CopyFits := by
  by_cases begins : t.FreeToOffer ∧ t.choose ≠ none
  · obtain ⟨free, choice⟩ := begins
    obtain ⟨x, hx⟩ := Option.ne_none_iff_exists'.1 choice
    rw [State.finish_of_choice free hx]
    have line : (t.begun x).drive.onLine = true := decide_eq_true free.state
    have state : (t.begun x).drive.link.state ≠ .barred := fun barred => by
      rcases free.state with k | k <;> cases k.symm.trans barred
    exact ⟨iff_of_true rfl rfl, iff_of_true rfl rfl, fun _ => rfl, fun barred => absurd barred state,
      fun off => absurd (line.symm.trans off) nofun⟩
  · rw [State.finish_of_none (by tauto)]
    exact .congr (s := t) rfl fits
theorem LinkKept.finish (h : LinkKept s t) : LinkKept s t.finish := by
  refine ⟨fun fits => (h.counts fits).finish, fun fits => (h.copy fits).finish,
    fun barred => t.finish_linkState.trans (h.barred barred), fun barred none => ?_⟩
  have still : ¬ t.FreeToOffer := fun free => by rcases free.state with k | k <;> cases k.symm.trans (h.barred barred)
  rw [State.finish_of_none (.inl still)]
  exact h.apart barred none
end

/-- Every command that is no reset and no start-up keeps the link controller so. -/
theorem exec_linkKept (c : Instr) (s : State) (fresh : ¬ startsAfresh c) : ∃ u, exec c s = done u ∧ LinkKept s u := by
  have apart {u : State} (e : exec c s = done u) (view : u.linkView = s.linkView) : ∃ u, exec c s = done u ∧ LinkKept s u :=
    ⟨u, e, .of_view view⟩
  have hears {kind f} (e : exec c s = done (s.receiveFrame kind f)) : ∃ u, exec c s = done u ∧ LinkKept s u := by
    refine ⟨_, e, ?_⟩
    rcases s.receiveFrame_ends kind f with ends | stays
    · exact ends.kept
    · exact .of_view (congrArg State.linkView stays)
  cases c with
  | powerUp => exact absurd (.inl rfl) fresh
  | resetRisingEdge => exact absurd (.inr (.inl rfl)) fresh
  | startUpComplete => exact absurd (.inr (.inr rfl)) fresh
  | resetFallingEdge => exact apart rfl (by split <;> rfl)
  | imageReadEnd bytes => exact apart rfl (by split <;> rfl)
  | uptimeTick => exact apart rfl (by split <;> rfl)
  | inputLevelChange x active => exact apart rfl rfl
  | reqRisingEdge i => exact apart rfl (by split <;> simp)
  | confirmRisingEdge => exact apart rfl (by split <;> simp)
  | stopChange => exact apart rfl (by split <;> [(dsimp only; split <;> simp); rfl])
  | prodLineChange i => exact apart rfl (by split <;> simp)
  | samplePeriodExpiry => exact apart rfl (by split <;> rfl)
  | sampleReply bytes => exact apart rfl (by split <;> [(split <;> [(split <;> simp); simp]); rfl])
  | replyTimeout => exact apart rfl (by split <;> simp)
  | applyAnnouncementCip => exact apart rfl (by split <;> [(split <;> simp); rfl])
  | applyAnnouncementProduct => exact apart rfl (by split <;> [(split <;> simp); rfl])
  | applyRelease => exact apart rfl (by split <;> simp)
  | inhibitOperation => exact apart rfl (by split <;> simp)
  | clearOperation => exact apart rfl (by split <;> simp)
  | ownInsert => exact apart rfl (by split <;> simp)
  | ownUpdate => exact apart rfl (by split <;> simp)
  | ownRemove => exact apart rfl (by split <;> simp)
  | evaluate => exact apart rfl (by split <;> simp)
  | entryExpiry n => exact apart rfl (by split <;> [(split <;> simp); rfl])
  | incompleteTimerExpiry r => exact apart rfl (by split <;> simp)
  | agingExpiry => exact apart rfl (by split <;> [(dsimp only; split <;> simp); rfl])
  | learningExpiry => exact apart rfl (by split <;> simp)
  | settleExpiry => exact apart rfl (by split <;> [(dsimp only; split <;> simp); rfl])
  | lapseExpiry => exact apart rfl (by split <;> [(split <;> simp); rfl])
  | refreshExpiry => exact apart rfl (by split <;> [(dsimp only; split <;> simp); rfl])
  | guardExpiry => exact apart rfl (by split <;> simp)
  | productRefreshExpiry i => exact apart rfl (by split <;> [(split <;> simp); rfl])
  | stepTimerExpiry => exact apart rfl (by split <;> simp)
  | pauseTimerExpiry => exact apart rfl (by split <;> rfl)
  | suspendTimerExpiry => exact apart rfl (by split <;> simp)
  | announce f => exact hears rfl
  | release f => exact hears rfl
  | inhibit f => exact hears rfl
  | clear f => exact hears rfl
  | request f => exact hears rfl
  | abort f => exact hears rfl
  | resume f => exact hears rfl
  | report f => exact hears rfl
  | status f => exact hears rfl
  | record f => exact hears rfl
  | unknownKind k f => exact hears rfl
  | commandNotAddressed f => exact hears rfl
  | receivedFrameCheckFailed =>
    refine ⟨_, rfl, ?_⟩
    split <;> [(rename_i k; exact (State.checkFailed_ends (of_decide_eq_true (Bool.and_eq_true_iff.1 k).2) _).kept); exact .refl s]
  | frameBreakOff =>
    refine ⟨_, rfl, ?_⟩
    split <;> [(rename_i k; exact (State.checkFailed_ends (of_decide_eq_true (Bool.and_eq_true_iff.1 k).2) _).kept); exact .refl s]
  | arbitrationLost =>
    refine ⟨_, rfl, ?_⟩
    split <;> [(rename_i k; exact .outbid (of_decide_eq_true (Bool.and_eq_true_iff.1 k).2) (.refl _)); exact .refl s]
  | frameAbandon =>
    refine ⟨_, rfl, ?_⟩
    split <;> [(rename_i k; exact .outbid (of_decide_eq_true (Bool.and_eq_true_iff.1 k).2) (State.tecUp_recounted _)); exact .refl s]
  | ownFrameEnd seen =>
    refine ⟨_, rfl, ?_⟩
    split <;> [(rename_i k; exact (State.ownFrame_ends (of_decide_eq_true (Bool.and_eq_true_iff.1 k).2) _).kept); exact .refl s]
  | mediumIdle => refine ⟨_, rfl, ?_⟩; split <;> [(rename_i k; exact .mediumIdle k.2.1); exact .refl s]
  | peerStartField => refine ⟨_, rfl, ?_⟩; split <;> [(rename_i k; exact .peerStartField k.2.1 k.2.2); exact .refl s]
  | holdBackExpiry => exact apart rfl (by split <;> rfl)
  | rejoin => refine ⟨_, rfl, ?_⟩; split <;> [(rename_i k; exact .rejoined k.2 (by simp)); exact .refl s]
  | statusPeriodExpiry => exact apart rfl (by split <;> simp)

/-- A node in reset or start-up state has no part in a frame and counts of 0 (R132, R155). -/
theorem State.afresh_fits {t : State} (h : t.linkView = State.reset.linkView) : t.link.CountsFit ∧ t.CopyFits :=
  ⟨.congr h (.of_zero rfl rfl), .congr h (.of_apart rfl rfl rfl)⟩

/-- Every command keeps both agreements. -/
theorem exec_linkFits {c : Instr} {s t : State} (e : exec c s = .next t) :
    (s.link.CountsFit → t.link.CountsFit) ∧ (s.CopyFits → t.CopyFits) := by
  by_cases fresh : startsAfresh c
  · have afresh : ∃ u, exec c s = done u ∧ (u.linkView = State.reset.linkView ∨ u = s) := by
      rcases fresh with rfl | rfl | rfl
      · exact ⟨_, rfl, .inl rfl⟩
      · refine ⟨_, rfl, ?_⟩; split <;> [exact .inl rfl; exact .inr rfl]
      · refine ⟨_, rfl, ?_⟩; split <;> [exact .inl (State.linkView_judgeHolds _); exact .inr rfl]
    obtain ⟨u, hu, begins⟩ := afresh
    obtain rfl := done_next (hu.symm.trans e)
    rcases begins with view | rfl
    · obtain ⟨counts, copy⟩ := State.afresh_fits view
      exact ⟨fun _ => counts.finish, fun _ => copy.finish⟩
    · exact ⟨.finish, .finish⟩
  · obtain ⟨u, hu, kept⟩ := exec_linkKept c s fresh
    obtain rfl := done_next (hu.symm.trans e)
    exact ⟨kept.finish.counts, kept.finish.copy⟩

/-- A millisecond moves the timers of link controller and selector alone. -/
theorem State.linkView_tick (s : State) : s.tick.linkView = s.linkView := by unfold State.tick; split <;> rfl

end Sys2Proof.Machine

open Sys2Proof Sys2Proof.Machine

/-- Settles O13: a move of the counts is judged at once; a copy begins with the sender's role, and ends with it or is ended before. -/
theorem linkControllerKept : Obligations.LinkControllerKept := by
  refine ⟨fun s t fits h => ?_, fun s t fits h => ?_⟩
  · exact step_keeps (P := fun s => s.link.CountsFit) (fun _ _ k => k) (fun _ _ _ k e => (exec_linkFits e).1 k)
      (fun s k => (k.congr s.linkView_tick).finish) fits h
  · exact step_keeps (P := State.CopyFits) (fun s rest k => .congr (s := s) rfl k) (fun _ _ _ k e => (exec_linkFits e).2 k)
      (fun s k => (k.congr s.linkView_tick).finish) fits h

/-- Settles O17: counts are judged and frames begun on the line alone, and a node with no part in a frame has none to end. -/
theorem barredUntilReset : Obligations.BarredUntilReset := by
  intro c s t e fresh barred
  obtain ⟨u, hu, kept⟩ := exec_linkKept c s fresh
  obtain rfl := done_next (hu.symm.trans e)
  exact ⟨kept.finish.barred barred, kept.finish.apart barred⟩

end

section
/-! The frames of the node's own slots and what another station reads from them (R149 to R151, R183, R185, R186): arbitration words, the pairs
of an ANNOUNCE, and the resource set of a RELEASE. -/

namespace Sys2Proof.Machine

/-! ### Arbitration words (R149) -/

/-- The word is the kind code above a 12-bit low field (R149). -/
theorem arbWord_toNat {kind low : Nat} (hk : kind < 16) (hl : low < 4096) : (arbWord kind low).toNat = kind * 4096 + low := by
  unfold arbWord
  rw [BitVec.toNat_ofNat]
  omega

theorem arbWord_inj {kind a b : Nat} (hk : kind < 16) (ha : a < 4096) (hb : b < 4096) (h : arbWord kind a = arbWord kind b) :
    a = b := by
  have words := congrArg BitVec.toNat h
  rw [arbWord_toNat hk ha, arbWord_toNat hk hb] at words
  omega

/-- The word of a RELEASE (R149). -/
theorem arbWord_release {node : Nat} (h : node ≤ 63) : (arbWord 2 node).toNat = 8192 + node := arbWord_toNat (by decide) (by omega)

/-- The word of an ANNOUNCE (R149). -/
theorem arbWord_announce {low : Nat} (h : low ≤ 4095) : (arbWord 3 low).toNat = 12288 + low := arbWord_toNat (by decide) (by omega)

/-! ### Bytes of a payload -/

theorem byte_toNat {n : Nat} (h : n ≤ 255) : (BitVec.ofNat 8 n).toNat = n := by
  rw [BitVec.toNat_ofNat]
  omega

/-! ### ANNOUNCE (R150) -/

/-- The two bytes of each pair, resource and demand (R186). -/
def pairBytes (pairs : List Pair) : List Byte := pairs.flatMap fun p => [BitVec.ofNat 8 p.res.val, BitVec.ofNat 8 p.demand]

theorem pairBytes_length (pairs : List Pair) : (pairBytes pairs).length = 2 * pairs.length := by
  unfold pairBytes
  rw [List.length_flatMap]
  simp [Nat.mul_comm]

theorem announcePayload_eq (state life : Nat) (pairs : List Pair) : announcePayload state life pairs =
    BitVec.ofNat 8 state :: BitVec.ofNat 8 life :: BitVec.ofNat 8 pairs.length :: pairBytes pairs := rfl

theorem announcePayload_length (state life : Nat) (pairs : List Pair) :
    (announcePayload state life pairs).length = 3 + 2 * pairs.length := by
  rw [announcePayload_eq]
  simp only [List.length_cons, pairBytes_length]
  omega

/-- The pairs read back from their bytes, in order (R183, R186). -/
theorem pairBytes_read {pairs : List Pair} (fits : ∀ p ∈ pairs, p.demand ≤ 255) :
    (List.range pairs.length).map (fun k => (⟨byteAt 0 (pairBytes pairs) (2 * k), byteAt 0 (pairBytes pairs) (2 * k + 1)⟩ : Claim))
      = pairs.map fun p => ⟨p.res.val, p.demand⟩ := by
  induction pairs with
  | nil => rfl
  | cons p rest ih =>
    have res : (BitVec.ofNat 8 p.res.val).toNat = p.res.val := byte_toNat (by omega)
    have demand : (BitVec.ofNat 8 p.demand).toNat = p.demand := byte_toNat (fits p List.mem_cons_self)
    rw [List.length_cons, List.range_succ_eq_map, List.map_cons, List.map_map, List.map_cons,
      ← ih fun q hq => fits q (List.mem_cons_of_mem _ hq)]
    exact congrArg₂ List.cons (congrArg₂ Claim.mk res demand) (List.map_congr_left fun _ _ => rfl)

/-- An ANNOUNCE as sent is read with its low field, state code, life and pairs (R150, R186). -/
theorem readAnnounce_announcePayload {x : RxFrame} {state life : Nat} {pairs : List Pair} (hs : state ≤ 3) (hl : life ≤ 255)
    (count : pairs.length ≤ 3) (fits : ∀ p ∈ pairs, p.demand ≤ 255) (payload : x.payload = announcePayload state life pairs) :
    readAnnounce x = some
      { owner := x.low.toNat % 64, key := x.low.toNat, life := life, pairs := pairs.map fun p => ⟨p.res.val, p.demand⟩
        state := if state = 0 then .waiting else if state = 1 then .claiming else if state = 2 then .running else .held } := by
  have b0 : byteAt 0 x.payload 0 = state := by rw [payload]; exact byte_toNat (by omega)
  have b1 : byteAt 0 x.payload 1 = life := by rw [payload]; exact byte_toNat hl
  have b2 : byteAt 0 x.payload 2 = pairs.length := by rw [payload]; exact byte_toNat (by omega)
  have behind (k : Nat) : byteAt 0 x.payload (3 + k) = byteAt 0 (pairBytes pairs) k := by
    rw [payload, Nat.add_comm]; rfl
  have pair (k : Nat) : byteAt 0 x.payload (4 + 2 * k) = byteAt 0 (pairBytes pairs) (2 * k + 1) := by
    rw [← behind]; congr 1; omega
  have length : x.payload.length = 3 + 2 * pairs.length := by rw [payload, announcePayload_length]
  rw [readAnnounce_eq x _ rfl, if_pos (by omega), b0, b1, b2]
  simp only [behind, pair, pairBytes_read fits]

/-! ### RELEASE (R151) -/

/-- The bits of a set's field beside those that stood before (R183). -/
theorem foldl_twoPow_getLsbD (rs : List Res) (w : Word16) (r : Res) :
    (rs.foldl (fun w r => w ||| BitVec.twoPow 16 r.val) w).getLsbD r.val = true ↔ w.getLsbD r.val = true ∨ r ∈ rs := by
  induction rs generalizing w with
  | nil => simp
  | cons q rest ih =>
    have bit : (BitVec.twoPow 16 q.val).getLsbD r.val = true ↔ r = q := by
      rw [BitVec.getLsbD_twoPow, Bool.and_eq_true, decide_eq_true_eq, decide_eq_true_eq, Fin.ext_iff]
      omega
    rw [List.foldl_cons, ih, BitVec.getLsbD_or, Bool.or_eq_true, bit, List.mem_cons, or_assoc]

/-- Bit n of a set's field stands for resource n (R183). -/
theorem setWord_getLsbD (rs : List Res) (r : Res) : (setWord rs).getLsbD r.val = true ↔ r ∈ rs := by
  unfold setWord
  rw [foldl_twoPow_getLsbD]
  simp

/-- A RELEASE as sent is read with its sender, role and set (R151, R186). -/
theorem readRelease_releasePayload {x : RxFrame} {role : Nat} {rs : List Res} (hr : role ≤ 1)
    (payload : x.payload = releasePayload role rs) :
    readRelease x = some (.release x.low.toNat (if role = 0 then .cip else .product) (setWord rs)) := by
  have b0 : byteAt 0 x.payload 0 = role := by rw [payload]; exact byte_toNat (by omega)
  have set : BitVec.ofNat 16 (byteAt 0 x.payload 1 * 256 + byteAt 0 x.payload 2) = setWord rs := by
    have high : byteAt 0 x.payload 1 = (setWord rs).toNat / 256 := by
      rw [payload]; exact byte_toNat (by omega)
    have low : byteAt 0 x.payload 2 = (setWord rs).toNat % 256 := by
      rw [payload]; exact BitVec.toNat_ofNat ..
    rw [high, low, Nat.div_add_mod', BitVec.ofNat_toNat, BitVec.setWidth_eq]
  have length : x.payload.length = 3 := by rw [payload]; rfl
  rw [readRelease_eq x _ rfl, if_pos (by omega), b0, set]

end Sys2Proof.Machine

open Sys2Proof Sys2Proof.Machine

/-- Settles O51: a word gives back its low field, an ANNOUNCE its fields byte by byte, and a RELEASE the set whose bits it carries. -/
theorem ownFramesReadAsSent : Obligations.OwnFramesReadAsSent := by
  intro node others early x node1 node63 _ _
  have ofNode {kind : Nat} (hk : kind < 16) (h : arbWord kind x.low.toNat = arbWord kind node) : x.low.toNat = node :=
    arbWord_inj hk x.low.isLt (by omega) h
  refine ⟨fun st key life pairs key12 owner life8 count demands payload word check => ⟨?_, ?_⟩,
    fun life r life8 payload word => ?_, fun rs payload word => ?_, fun r payload word => ?_⟩
  · have length : x.payload.length ≤ 12 := by
      rw [payload]
      exact (announcePayload_length ..).trans_le (by omega)
    rw [checkGood, word, check, decide_eq_true length, beq_self_eq_true, Bool.and_self]
  · have low : x.low.toNat = key := arbWord_inj (by decide) x.low.isLt (by omega) word
    rw [readAnnounce_announcePayload (by cases st <;> decide) life8 count demands payload, low, owner]
    cases st <;> rfl
  · have product : ∀ p ∈ [(⟨r, 255⟩ : Pair)], p.demand ≤ 255 := by simp
    rw [readAnnounce_announcePayload (le_refl 3) life8 (by simp) product payload, ofNode (by decide) word,
      Nat.mod_eq_of_lt (by omega)]
    rfl
  · refine ⟨setWord rs, ?_, setWord_getLsbD rs⟩
    rw [readRelease_releasePayload (by decide) payload, ofNode (by decide) word]
    rfl
  · refine ⟨setWord [r], ?_, fun q => (setWord_getLsbD [r] q).trans List.mem_singleton⟩
    rw [readRelease_releasePayload (le_refl 1) payload, ofNode (by decide) word]
    rfl

end

section
/-! The selector's choice among class-A slots (R158): the first of the lowest arbitration word, in the order of the slots. -/

namespace Sys2Proof.Machine

/-! ### The lowest word (R158) -/

/-- Along a list in an order, the choice has the lowest word, and a lower one than whatever stands before it (R158). -/
theorem lowestWord_least {R : SlotId × OwnCopy → SlotId × OwnCopy → Prop} {l : List (SlotId × OwnCopy)} {x : SlotId × OwnCopy}
    (ordered : l.Pairwise R) (h : lowestWord l = some x) : ∀ y ∈ l,
    y = x ∨ R x y ∧ x.2.word.toNat ≤ y.2.word.toNat ∨ R y x ∧ x.2.word.toNat < y.2.word.toNat := by
  induction l generalizing x with
  | nil => cases h
  | cons z rest ih =>
    obtain ⟨first, later⟩ := List.pairwise_cons.1 ordered
    cases lowest : lowestWord rest with
    | none =>
      obtain rfl := lowestWord_eq_none lowest
      cases h
      exact fun y hy => .inl (List.mem_singleton.1 hy)
    | some w =>
      have among := ih later lowest
      have choice : (if w.2.word.toNat < z.2.word.toNat then some w else some z) = some x := by
        rw [← h, lowestWord, lowest]
      intro y hy
      by_cases lower : w.2.word.toNat < z.2.word.toNat
      · rw [if_pos lower] at choice
        cases choice
        rcases List.mem_cons.1 hy with rfl | hy
        · exact .inr (.inr ⟨first _ (lowestWord_mem lowest), lower⟩)
        · exact among y hy
      · rw [if_neg lower] at choice
        cases choice
        rcases List.mem_cons.1 hy with rfl | hy
        · exact .inl rfl
        · refine .inr (.inl ⟨first y hy, ?_⟩)
          rcases among y hy with rfl | ⟨-, le⟩ | ⟨-, lt⟩ <;> omega

/-- The order of the slots at equal words: the own step slot, then the product slots by line (R158). -/
def SlotId.rank : SlotId → Nat
  | .own => 0
  | .product i => i.val + 1
  | .status => 5
  | .stream => 6

section
variable {s : State}

theorem State.mem_classA {y : SlotId × OwnCopy} : y ∈ s.classA ↔
    (∃ c, s.tx.own = some c ∧ y = (.own, c.frame s.settings.node)) ∨
    (∃ (i : Fin 4) (c : ProdFrame), s.tx.product[i] = some c ∧ y = (.product i, c.frame s.settings.node)) := by
  unfold State.classA
  rw [List.mem_append, List.mem_filterMap]
  refine or_congr ?_ ⟨?_, ?_⟩
  · cases s.tx.own <;> simp
  · rintro ⟨i, -, hi⟩
    obtain ⟨c, hc, rfl⟩ := Option.map_eq_some_iff.1 hi
    exact ⟨i, c, hc, rfl⟩
  · rintro ⟨i, c, hc, rfl⟩
    exact ⟨i, List.mem_finRange i, by rw [hc]; rfl⟩

theorem State.classA_ranked : s.classA.Pairwise fun x y => x.1.rank < y.1.rank := by
  unfold State.classA
  refine List.pairwise_append.2 ⟨?_, ?_, ?_⟩
  · cases s.tx.own <;> simp
  · refine List.Pairwise.filterMap _ ?_ (List.pairwise_lt_finRange 4)
    intro i j before x hx y hy
    obtain ⟨c, -, rfl⟩ := Option.map_eq_some_iff.1 hx
    obtain ⟨d, -, rfl⟩ := Option.map_eq_some_iff.1 hy
    exact Nat.succ_lt_succ before
  · intro x hx y hy
    obtain ⟨i, -, hi⟩ := List.mem_filterMap.1 hy
    obtain ⟨c, -, rfl⟩ := Option.map_eq_some_iff.1 hi
    have own : x.1 = .own := by
      cases k : s.tx.own with
      | none => rw [k] at hx; cases hx
      | some d => rw [k] at hx; rw [List.mem_singleton.1 hx]
    rw [own]
    exact Nat.succ_pos _

/-- With a class-A slot pending one of them is chosen, turn and count as they were (R158). -/
theorem State.choose_of_classA (h : s.classA ≠ []) :
    ∃ x, lowestWord s.classA = some x ∧ s.choose = some ⟨x.1, x.2, s.tx.turn, s.tx.turnCount⟩ := by
  cases lowest : lowestWord s.classA with
  | none => exact absurd (lowestWord_eq_none lowest) h
  | some x => exact ⟨x, rfl, by unfold State.choose; rw [lowest]⟩

/-- No product slot's frame has a higher word than an announcement of the node's own number (R149). -/
theorem ProdFrame.frame_word_le {node : Nat} (h : node ≤ 63) (y : ProdFrame) : (y.frame node).word.toNat ≤ 12288 + node := by
  cases y with
  | announce life r => exact (arbWord_announce (by omega)).le
  | release r => exact (arbWord_release h).le.trans (by omega)

/-- The words of class A: a RELEASE before a product announcement, and that before an own one (R149, R158). -/
theorem State.classA_word (node63 : s.settings.node ≤ 63)
    (keys : ∀ st key life pairs, s.tx.own = some (.announce st key life pairs) → 65 ≤ key ∧ key ≤ 4095)
    {y : SlotId × OwnCopy} (hy : y ∈ s.classA) :
    y.2.word.toNat = 8192 + s.settings.node ∨ y.2.word.toNat = 12288 + s.settings.node ∨ 12288 + 65 ≤ y.2.word.toNat := by
  rcases State.mem_classA.1 hy with ⟨c, hc, rfl⟩ | ⟨i, c, -, rfl⟩
  · cases c with
    | release rs => exact .inl (arbWord_release node63)
    | announce st key life pairs =>
      obtain ⟨low, high⟩ := keys st key life pairs hc
      exact .inr (.inr ((Nat.add_le_add_left low _).trans_eq (arbWord_announce high).symm))
  · cases c with
    | release r => exact .inl (arbWord_release node63)
    | announce life r => exact .inr (.inl (arbWord_announce (by omega)))
end

end Sys2Proof.Machine

open Sys2Proof Sys2Proof.Machine

/-- Settles O59: class A stands in the order of its slots, and the choice is the first of its lowest word. -/
theorem classALowestWordFirst : Obligations.ClassALowestWordFirst := by
  intro s pending
  have own {y : OwnFrame} (hy : s.tx.own = some y) : (SlotId.own, y.frame s.settings.node) ∈ s.classA :=
    State.mem_classA.2 (.inl ⟨y, hy, rfl⟩)
  have product {j : Fin 4} {y : ProdFrame} (hy : s.tx.product[j] = some y) :
      (SlotId.product j, y.frame s.settings.node) ∈ s.classA :=
    State.mem_classA.2 (.inr ⟨j, y, hy, rfl⟩)
  have some_waits : s.classA ≠ [] := by
    rcases pending with k | ⟨i, k⟩ <;> obtain ⟨y, hy⟩ := Option.isSome_iff_exists.1 k
    · exact List.ne_nil_of_mem (own hy)
    · exact List.ne_nil_of_mem (product hy)
  obtain ⟨x, lowest, choice⟩ := State.choose_of_classA some_waits
  have least := lowestWord_least State.classA_ranked lowest
  have le : ∀ y ∈ s.classA, x.2.word.toNat ≤ y.2.word.toNat := fun y hy => by
    rcases least y hy with rfl | ⟨-, le⟩ | ⟨-, lt⟩ <;> omega
  have lt : ∀ y ∈ s.classA, y.1.rank < x.1.rank → x.2.word.toNat < y.2.word.toNat := fun y hy before => by
    rcases least y hy with rfl | ⟨behind, -⟩ | ⟨-, lt⟩ <;> omega
  refine ⟨_, choice, rfl, rfl, ?_, fun node63 keys => ?_⟩
  · rcases State.mem_classA.1 (lowestWord_mem lowest) with ⟨c, hc, rfl⟩ | ⟨i, c, hc, rfl⟩
    · exact .inl ⟨c, hc, rfl, rfl, fun j y hy => le _ (product hy)⟩
    · exact .inr ⟨i, c, hc, rfl, rfl, fun y hy => lt _ (own hy) (Nat.succ_pos _),
        fun j y hy => ⟨le _ (product hy), fun before => lt _ (product hy) (Nat.succ_lt_succ before)⟩⟩
  · have words := State.classA_word node63 keys (lowestWord_mem lowest)
    dsimp only
    constructor
    · intro release
      have bound : x.2.word.toNat ≤ (arbWord 2 s.settings.node).toNat := by
        rcases release with ⟨rs, hrs⟩ | ⟨i, r, hr⟩
        · exact le _ (own hrs)
        · exact le _ (product hr)
      rw [arbWord_release node63] at bound
      omega
    · rintro ⟨i, waits⟩
      obtain ⟨y, hy⟩ := Option.isSome_iff_exists.1 waits
      have bound : x.2.word.toNat ≤ 12288 + s.settings.node :=
        (le _ (product hy)).trans (ProdFrame.frame_word_le node63 y)
      omega

end

section
/-! With no class-A slot pending, the round robin between STATUS and the record stream (R159), and the frame of each (R149, R169). -/

namespace Sys2Proof.Machine

/-! ### The round robin (R159) -/

/-- The class that is not in turn. -/
def Turn.other : Turn → Turn
  | .b => .c
  | .c => .b

theorem Turn.other_ne (t : Turn) : t.other ≠ t := by cases t <;> decide

/-- What the round robin chooses: the class in turn, below its weight or alone, or else the other with a count of 0 (R159). -/
theorem roundRobin_eq_some {turn : Turn} {count weight : Nat} {mine other : Option (SlotId × OwnCopy)} {x : Choice}
    (h : roundRobin turn count weight mine other = some x) :
    (x.turn = turn ∧ mine = some (x.slot, x.frame) ∧ x.count = (if count < weight then count else 0)
      ∧ (other.isSome = true → count < weight)) ∨
    (x.turn = turn.other ∧ other = some (x.slot, x.frame) ∧ x.count = 0 ∧ (mine.isSome = true → ¬ count < weight)) := by
  cases mine with
  | none =>
    cases other with
    | none => cases h
    | some y => cases h; exact .inr ⟨rfl, rfl, rfl, nofun⟩
  | some z =>
    cases other with
    | none => cases h; exact .inl ⟨rfl, rfl, rfl, nofun⟩
    | some y =>
      unfold roundRobin at h
      dsimp only at h
      by_cases below : count < weight
      · rw [if_pos below] at h; cases h
        exact .inl ⟨rfl, rfl, (if_pos below).symm, fun _ => below⟩
      · rw [if_neg below] at h; cases h
        exact .inr ⟨rfl, rfl, rfl, fun _ => below⟩

/-! ### The classes -/

/-- The weight of the class in turn (R159). -/
def State.turnWeight (s : State) : Nat := if s.tx.turn = .b then s.settings.wB else s.settings.wC

/-- What waits of a class: the STATUS of class B, the record fragment of class C (R157). -/
def State.waitingIn (s : State) : Turn → Option (SlotId × OwnCopy)
  | .b => s.statusFrame.map (SlotId.status, ·)
  | .c => s.streamFrame.map (SlotId.stream, ·)

section
variable {s : State}

theorem State.choose_eq_roundRobin (h : s.classA = []) : s.choose =
    roundRobin s.tx.turn s.tx.turnCount s.turnWeight (s.waitingIn s.tx.turn) (s.waitingIn s.tx.turn.other) := by
  unfold State.choose State.turnWeight
  rw [h]
  cases s.tx.turn <;> rfl

theorem State.waitingIn_b {x : SlotId × OwnCopy} : s.waitingIn .b = some x ↔
    ∃ bytes, s.tx.status = some bytes ∧ x = (.status, sentFrame (arbWord 5 s.settings.node) bytes) := by
  simp only [State.waitingIn, State.statusFrame, Option.map_map, Option.map_eq_some_iff, Function.comp_apply, eq_comm (a := x)]

theorem State.waitingIn_c {x : SlotId × OwnCopy} : s.waitingIn .c = some x ↔
    ∃ r rest, s.log.queue = r :: rest ∧ x = (.stream, r.frame s.settings.node s.log.nextFragment) := by
  unfold State.waitingIn State.streamFrame Log.stream
  cases s.log.queue with
  | nil => exact ⟨nofun, nofun⟩
  | cons r rest => simp [eq_comm (a := x)]

/-- What waits of a class is the STATUS in its slot or the head record's next fragment (R149, R169). -/
theorem State.waitingIn_cases {t : Turn} {slot : SlotId} {frame : OwnCopy} (h : s.waitingIn t = some (slot, frame)) :
    (∃ bytes, s.tx.status = some bytes ∧ t = .b ∧ slot = .status ∧ frame = sentFrame (arbWord 5 s.settings.node) bytes) ∨
    (∃ r rest, s.log.queue = r :: rest ∧ t = .c ∧ slot = .stream ∧ frame = r.frame s.settings.node s.log.nextFragment) := by
  cases t with
  | b =>
    obtain ⟨bytes, hb, e⟩ := State.waitingIn_b.1 h
    exact .inl ⟨bytes, hb, rfl, Prod.mk.inj e⟩
  | c =>
    obtain ⟨r, rest, hq, e⟩ := State.waitingIn_c.1 h
    exact .inr ⟨r, rest, hq, rfl, Prod.mk.inj e⟩

/-- Where both classes wait, each does. -/
theorem State.waitingIn_isSome (status : s.tx.status.isSome = true) (queue : s.log.queue ≠ []) (t : Turn) :
    (s.waitingIn t).isSome = true := by
  cases t with
  | b =>
    obtain ⟨bytes, hb⟩ := Option.isSome_iff_exists.1 status
    exact Option.isSome_iff_exists.2 ⟨_, State.waitingIn_b.2 ⟨bytes, hb, rfl⟩⟩
  | c =>
    obtain ⟨r, rest, hq⟩ := List.exists_cons_of_ne_nil queue
    exact Option.isSome_iff_exists.2 ⟨_, State.waitingIn_c.2 ⟨r, rest, hq, rfl⟩⟩

/-- Where nothing waits, no class does. -/
theorem State.waitingIn_eq_none (status : s.tx.status = none) (queue : s.log.queue = []) (t : Turn) : s.waitingIn t = none := by
  cases t <;> simp [State.waitingIn, State.statusFrame, State.streamFrame, Log.stream, status, queue]

/-! ### The choice -/

/-- Something pending is always chosen (R157, R159). -/
theorem State.choose_eq_none_iff (h : s.classA = []) : s.choose = none ↔ s.tx.status = none ∧ s.log.queue = [] := by
  constructor
  · intro none
    obtain ⟨-, -, status, queue⟩ := State.nothing_waits none
    exact ⟨status, queue⟩
  · rintro ⟨status, queue⟩
    rw [State.choose_eq_roundRobin h, State.waitingIn_eq_none status queue, State.waitingIn_eq_none status queue]
    rfl

/-- The choice with no class-A slot pending: what waits of its class, which is the one in turn exactly below its weight where both
wait (R159). -/
theorem State.choose_of_roundRobin (h : s.classA = []) {c : Choice} (choice : s.choose = some c) :
    s.waitingIn c.turn = some (c.slot, c.frame) ∧
    (c.turn = s.tx.turn → c.count = if s.tx.turnCount < s.turnWeight then s.tx.turnCount else 0) ∧
    (c.turn ≠ s.tx.turn → c.count = 0) ∧
    ((∀ t, (s.waitingIn t).isSome = true) → (c.turn = s.tx.turn ↔ s.tx.turnCount < s.turnWeight)) := by
  rw [State.choose_eq_roundRobin h] at choice
  rcases roundRobin_eq_some choice with ⟨turn, waits, count, below⟩ | ⟨turn, waits, count, above⟩
  · rw [turn]
    exact ⟨waits, fun _ => count, fun other => absurd rfl other, fun both => ⟨fun _ => below (both _), fun _ => rfl⟩⟩
  · have other : c.turn ≠ s.tx.turn := turn ▸ s.tx.turn.other_ne
    exact ⟨turn ▸ waits, fun mine => absurd mine other, fun _ => count,
      fun both => ⟨fun mine => absurd mine other, fun below => absurd below (above (both _))⟩⟩
end

end Sys2Proof.Machine

open Sys2Proof Sys2Proof.Machine

/-- Settles O60: the choice is what waits of the class that the round robin gives it, a STATUS or the head's next fragment. -/
theorem roundRobinServesBothClasses : Obligations.RoundRobinServesBothClasses := by
  intro s noClassA
  refine ⟨State.choose_eq_none_iff noClassA, fun c choice => ?_⟩
  obtain ⟨waits, mine, other, weighed⟩ := State.choose_of_roundRobin noClassA choice
  obtain ⟨length, check⟩ := State.choose_formed choice
  have both := fun status queue => weighed (State.waitingIn_isSome status queue)
  rcases State.waitingIn_cases waits with ⟨bytes, hb, turn, slot, frame⟩ | ⟨r, rest, hq, turn, slot, frame⟩
  · have word (h : s.settings.node ≤ 63) : c.frame.word.toNat = 20480 + s.settings.node := by
      rw [frame]; exact arbWord_toNat (by decide) (by omega)
    exact ⟨.inl ⟨slot, turn, by rw [hb]; rfl⟩, mine, other, fun _ => ⟨bytes, hb, by rw [frame]; rfl, word⟩,
      fun k => absurd (slot.symm.trans k) (by decide), length, check, both⟩
  · have word (h : s.settings.node ≤ 63) : c.frame.word.toNat = 24576 + s.settings.node := by
      rw [frame]; exact arbWord_toNat (by decide) (by omega)
    exact ⟨.inr ⟨slot, turn, by rw [hq]; exact List.cons_ne_nil _ _⟩, mine, other, fun k => absurd (slot.symm.trans k) (by decide),
      fun _ => ⟨r, rest, hq, by rw [frame]; rfl, word⟩, length, check, both⟩

end

section
/-! What a panel reads from the 12 bytes of a STATUS (R118, R171, R187): the numbers that its bytes hold, and the fields in their bits. -/

namespace Sys2Proof.Machine

/-! ### Fields -/

/-- The presented divert state shows RECOVER only while a step runs that has it so (R111, R187). -/
theorem Verifier.presented_code (v : Verifier) :
    v.presented.code = if v.divert = .recover ∧ v.mode ≠ .off ∧ v.mode ≠ .standby then 1 else 0 := by
  have recover : v.presented = .recover ↔ v.divert = .recover ∧ v.mode ≠ .off ∧ v.mode ≠ .standby :=
    decide_eq_decide.1 (v.presented_recover.trans (Bool.decide_and _ _).symm)
  rw [← if_congr recover rfl rfl]
  cases v.presented <;> rfl

/-- Credit percent: the share of the required credit while a step runs, 0 otherwise (R118, R171). -/
theorem Verifier.creditPercent_eq (v : Verifier) : v.creditPercent = match v.mode with
    | .off => 0
    | .standby => 0
    | _ => v.credit * 100 / v.required := by
  unfold Verifier.creditPercent
  cases v.mode <;> rfl
theorem Verifier.creditPercent_le {v : Verifier} (h : v.credit ≤ v.required) : v.creditPercent ≤ 100 := by
  unfold Verifier.creditPercent
  split
  · exact Nat.div_le_of_le_mul (Nat.mul_le_mul_right 100 h)
  · exact Nat.zero_le _

/-- A flag stands where the flag word has its bit (R187). -/
theorem State.flag_eq_testBit (s : State) (f : Sticky) : s.flag f = s.log.flags.toNat.testBit f.index := rfl

/-! ### The bytes -/

/-- The numbers in the bytes of a STATUS (R187). -/
def State.statusByte (s : State) : Fin 12 → Nat :=
  ![s.seq.state.code * 32 + s.adm.state.code * 16 + s.link.state.code * 4 + s.seq.phase.code * 2 + s.ver.presented.code,
    s.seq.roundNumber % 256, s.seq.slot.val * 64 + s.seq.pointer.val, s.seq.repeats, s.ver.creditPercent, s.adm.urgency,
    s.link.tec, s.link.recCount, s.log.queue.length * 32 + causeCode s.seq.lastCause, s.log.dropped,
    s.log.flags.toNat / 256, s.log.flags.toNat % 256]

/-- A byte holds a number but for its multiples of 256 (R183). -/
theorem ofNat_byte_congr {a b : Nat} (h : a % 256 = b % 256) : BitVec.ofNat 8 a = BitVec.ofNat 8 b :=
  BitVec.eq_of_toNat_eq (by rw [BitVec.toNat_ofNat, BitVec.toNat_ofNat]; exact h)

theorem statusBytes_eq (s : State) : statusBytes s = (List.finRange 12).map fun i => BitVec.ofNat 8 (s.statusByte i) := by
  unfold statusBytes bytes16
  dsimp only
  rw [← ofNat_byte_congr (Nat.mod_mod s.seq.roundNumber 256), ← ofNat_byte_congr (Nat.mod_mod s.log.flags.toNat 256)]
  rfl

/-- Codes and counts leave each other's bits alone. -/
theorem State.statusByte_bounds (s : State) : s.seq.state.code ≤ 6 ∧ s.adm.state.code ≤ 1 ∧ s.link.state.code ≤ 3
    ∧ s.seq.phase.code ≤ 1 ∧ s.ver.presented.code ≤ 1 ∧ causeCode s.seq.lastCause ≤ 5 := by
  refine ⟨?_, ?_, ?_, ?_, ?_, ?_⟩
  · cases s.seq.state <;> decide
  · cases s.adm.state <;> decide
  · cases s.link.state <;> decide
  · cases s.seq.phase <;> decide
  · cases s.ver.presented <;> decide
  · rcases s.seq.lastCause with _ | c <;> [decide; (cases c <;> decide)]

end Sys2Proof.Machine

open Sys2Proof Sys2Proof.Machine

/-- Settles O52: the bytes of a STATUS hold the numbers of `State.statusByte`, and codes and counts within their bounds do not reach into
each other's bits. -/
theorem statusBytesCarryTheirFields : Obligations.StatusBytesCarryTheirFields := by
  intro s repeats urgency tec recCount queue dropped credit
  obtain ⟨state, adm, link, phase, divert, cause⟩ := s.statusByte_bounds
  have percent := Verifier.creditPercent_le credit
  have slot := s.seq.slot.isLt
  have pointer := s.seq.pointer.isLt
  have flags := s.log.flags.isLt
  refine ⟨s.statusByte, statusBytes_eq s, fun i => ?_, ?_⟩
  · fin_cases i <;> simp [State.statusByte] <;> omega
  have b0 : s.statusByte 0 = s.seq.state.code * 32 + s.adm.state.code * 16 + s.link.state.code * 4 + s.seq.phase.code * 2
    + s.ver.presented.code := rfl
  have b2 : s.statusByte 2 = s.seq.slot.val * 64 + s.seq.pointer.val := rfl
  have b8 : s.statusByte 8 = s.log.queue.length * 32 + causeCode s.seq.lastCause := rfl
  have word : s.statusByte 10 * 256 + s.statusByte 11 = s.log.flags.toNat := Nat.div_add_mod' _ _
  have state0 : s.statusByte 0 / 32 = s.seq.state.code := by omega
  have adm0 : s.statusByte 0 / 16 % 2 = s.adm.state.code := by omega
  have link0 : s.statusByte 0 / 4 % 4 = s.link.state.code := by omega
  have phase0 : s.statusByte 0 / 2 % 2 = s.seq.phase.code := by omega
  have divert0 : s.statusByte 0 % 2 = s.ver.presented.code := by omega
  have cause8 : s.statusByte 8 % 8 = causeCode s.seq.lastCause := by omega
  refine ⟨state0, adm0, link0, phase0, divert0, rfl, by omega, by omega, rfl, rfl, percent, rfl, rfl, rfl, by omega, cause8, rfl,
    word, ?_, ?_, ?_, ?_, divert0.trans s.ver.presented_code, by omega, by omega, s.ver.creditPercent_eq, ?_, fun f => ?_⟩
  · rw [state0]; cases s.seq.state <;> rfl
  · rw [adm0]; cases s.adm.state <;> rfl
  · rw [link0]; cases s.link.state <;> rfl
  · rw [phase0]; cases s.seq.phase <;> rfl
  · rw [cause8]; rcases s.seq.lastCause with _ | c <;> [rfl; (cases c <;> rfl)]
  · rw [word, State.flag_eq_testBit]; cases f <;> rfl

end

section
/-! The image of a record and its fragments (R166, R169, R183, R188): strings of bytes cut into pieces of one length, the header and each
result at its place, and the fragments joined. -/

namespace Sys2Proof.Machine

/-! ### Pieces of one length -/

/-- The first n pieces of a string, one after the other, are its beginning. -/
theorem flatMap_pieces {α : Type} (l : List α) (c n : Nat) :
    (List.range n).flatMap (fun k => (l.drop (c * k)).take c) = l.take (c * n) := by
  induction n with
  | zero => simp
  | succ n ih => rw [List.range_succ, List.flatMap_append, ih, Nat.mul_succ, List.take_add]; simp

/-- Piece k of a string made of pieces of one length. -/
theorem piece_flatMap {α β : Type} {c : Nat} (f : α → List β) (length : ∀ x, (f x).length = c) :
    ∀ (l : List α) {k : Nat} {x : α}, l[k]? = some x → ((l.flatMap f).drop (c * k)).take c = f x
  | [], _, _, h => absurd h nofun
  | y :: _, 0, _, h => by
    obtain rfl : y = _ := Option.some.inj h
    rw [List.flatMap_cons, Nat.mul_zero, List.drop_zero, List.take_left' (length y)]
  | y :: l, k + 1, x, h => by
    rw [List.flatMap_cons, Nat.mul_succ, Nat.add_comm, ← List.drop_drop, List.drop_left' (length y)]
    exact piece_flatMap f length l h

/-! ### The image -/

theorem Record.headerBytes_length (r : Record) : r.headerBytes.length = 20 := rfl
theorem StepResult.bytes_length (x : StepResult) : x.bytes.length = 14 := rfl

theorem Record.image_length (r : Record) : r.image.length = 20 + 14 * r.results.length := by
  unfold Record.image
  rw [List.length_append, r.headerBytes_length, List.length_flatMap]
  simp [StepResult.bytes_length, Nat.mul_comm]
theorem Record.image_header (r : Record) : r.image.take 20 = r.headerBytes := List.take_left' r.headerBytes_length
theorem Record.image_result {r : Record} {k : Nat} {x : StepResult} (h : r.results[k]? = some x) :
    (r.image.drop (20 + 14 * k)).take 14 = x.bytes := by
  unfold Record.image
  rw [← List.drop_drop, List.drop_left' r.headerBytes_length]
  exact piece_flatMap StepResult.bytes StepResult.bytes_length r.results h

/-- The four bytes of a number, most significant first (R183). -/
theorem bytes32_eq (n : Nat) : bytes32 n =
    [BitVec.ofNat 8 (n / 2 ^ 24), BitVec.ofNat 8 (n / 2 ^ 16), BitVec.ofNat 8 (n / 2 ^ 8), BitVec.ofNat 8 n] := by
  have top : BitVec.ofNat 8 (n / 65536 / 256) = BitVec.ofNat 8 (n / 2 ^ 24) := ofNat_byte_congr (by omega)
  have third : BitVec.ofNat 8 (n % 65536 / 256) = BitVec.ofNat 8 (n / 2 ^ 8) := ofNat_byte_congr (by omega)
  have last : BitVec.ofNat 8 (n % 65536) = BitVec.ofNat 8 n := ofNat_byte_congr (by omega)
  unfold bytes32 bytes16
  rw [top, third, last]
  rfl

/-! ### Fragments -/

/-- The padding bytes of the last fragment (R166). -/
def Record.padding (r : Record) : Nat := 8 * r.fragmentCount - r.image.length

theorem Record.fragmentCount_bounds (r : Record) : r.image.length ≤ 8 * r.fragmentCount ∧ 8 * r.fragmentCount < r.image.length + 8 := by
  rw [r.image_length]
  unfold Record.fragmentCount
  omega

theorem Record.fragment_length (r : Record) (k : Nat) : (r.fragment k).length = 8 := by
  unfold Record.fragment
  simp only [List.length_append, List.length_replicate, List.length_take]
  omega

/-- A fragment is a piece of the padded image. -/
theorem Record.fragment_eq {r : Record} {k : Nat} (h : k < r.fragmentCount) :
    r.fragment k = ((r.image ++ List.replicate r.padding 0).drop (8 * k)).take 8 := by
  obtain ⟨covers, tight⟩ := r.fragmentCount_bounds
  have inside : 8 * k ≤ r.image.length := by omega
  have padded : 8 - ((r.image.drop (8 * k)).take 8).length = min (8 - (r.image.drop (8 * k)).length) r.padding := by
    unfold Record.padding
    rw [List.length_take, List.length_drop]
    omega
  unfold Record.fragment
  dsimp only
  rw [List.drop_append_of_le_length inside, List.take_append, List.take_replicate, padded]

theorem Record.fragments_eq (r : Record) :
    (List.range r.fragmentCount).flatMap r.fragment = r.image ++ List.replicate r.padding 0 := by
  have pieces : (List.range r.fragmentCount).flatMap r.fragment =
      (List.range r.fragmentCount).flatMap fun k => ((r.image ++ List.replicate r.padding 0).drop (8 * k)).take 8 :=
    List.flatMap_congr fun k h => Record.fragment_eq (List.mem_range.1 h)
  have whole : (r.image ++ List.replicate r.padding 0).length = 8 * r.fragmentCount := by
    have := r.fragmentCount_bounds.1
    unfold Record.padding
    rw [List.length_append, List.length_replicate]
    omega
  rw [pieces, flatMap_pieces, ← whole, List.take_length]

end Sys2Proof.Machine

open Sys2Proof Sys2Proof.Machine

/-- Settles O53: the fragments are the pieces of the image with its padding, and header and results stand in it at fixed places. -/
theorem recordFragmentsCarryTheImage : Obligations.RecordFragmentsCarryTheImage := by
  intro r atLeast atMost
  obtain ⟨covers, tight⟩ := r.fragmentCount_bounds
  have length := r.image_length
  refine ⟨length, by omega, by omega, r.fragment_length, ⟨r.padding, by unfold Record.padding; omega, r.fragments_eq⟩,
    fun outcome cause ho hc => ⟨?_, fun k x how tmin tmax peak hx hh hmin hmax hpeak => ?_⟩⟩
  · have outcomeCode : outcome = r.outcome.code := by rw [ho]; cases r.outcome <;> rfl
    have causeCode' : cause = causeCode r.lastCause := by rw [hc]; rcases r.lastCause with _ | c <;> [rfl; (cases c <;> rfl)]
    rw [r.image_header, outcomeCode, causeCode']
    unfold Record.headerBytes
    rw [bytes32_eq, bytes32_eq]
    rfl
  · have howCode : how = x.outcome.code := by rw [hh]; cases x.outcome <;> rfl
    have lowest : tmin = x.minTr.getD 65535 := by rw [hmin]; cases x.minTr <;> rfl
    have highest : tmax = x.maxTr.getD 65535 := by rw [hmax]; cases x.maxTr <;> rfl
    have peak' : peak = x.peak.getD 65535 := by rw [hpeak]; cases x.peak <;> rfl
    rw [Record.image_result hx, howCode, lowest, highest, peak']
    rfl

end

section
/-! What becomes of the sticky flags and of the record under composition (R156, R163 to R168, R172, R173): the relations, and what the
operations of the round, of the admission unit and of the link make of them. -/

namespace Sys2Proof.Machine

/-! ### The relations -/

/-- No own copy begins, and no replacement mark is cleared (R156). -/
structure Selector.KeepsCopy (a b : Selector) : Prop where
  copy : ∀ k, b.copyFrom = some k → a.copyFrom = some k
  mark : ∀ k, b.marks.get k = false → a.marks.get k = false

/-- Flags are at most set, RECORD_DROPPED and the dropped count not moved under HOLD_ROUNDS; and while a STATUS on the medium is not
replaced, what it carried stands, and renewal marks are at most set (R168, R172, R173). -/
structure Flagging (s t : State) : Prop where
  settings : t.settings = s.settings
  flags : ∀ f : Sticky, s.flag f = true → t.flag f = true
  dropped : s.settings.policy = .holdRounds →
    t.log.dropped = s.log.dropped ∧ (s.flag .recordDropped = false → t.flag .recordDropped = false)
  tx : s.tx.KeepsCopy t.tx
  shown : t.tx.copyFrom = some .status → t.tx.marks.status = false →
    t.log.carried = s.log.carried ∧ ∀ i, s.log.renewal.getLsbD i = true → t.log.renewal.getLsbD i = true

/-- No record is under composition in IDLE, and a complete one is in CLOSING alone (R94, R95, R166). -/
structure State.RecordFits (s : State) : Prop where
  idle : s.seq.state = .idle → s.log.comp = none
  complete : ∀ x, s.log.comp = some x → x.complete = true → s.seq.state = .closing

/-- A record under composition goes on: results are at most appended, and a complete one is as it was (R165, R166). -/
def Composition.GoesOn (x y : Composition) : Prop := x.record.continuedBy y.record ∧ (x.complete = true → y = x)

/-- The queue of records is as it was, the record under composition goes on, and none begins. -/
structure Composing (s t : State) : Prop extends Flagging s t where
  queue : t.log.queue = s.log.queue
  next : t.log.nextFragment = s.log.nextFragment
  fits : s.RecordFits → t.RecordFits
  unbegun : s.log.comp = none → t.log.comp = none
  comp : s.RecordFits → ∀ x, s.log.comp = some x → ∃ y, t.log.comp = some y ∧ x.GoesOn y

theorem State.RoundFits.recordFits {s : State} (h : s.RoundFits) : s.RecordFits := by
  refine ⟨h.record.1, fun x comp complete => h.closing.2 ?_⟩
  unfold Log.waitingRecord
  rw [comp]
  dsimp only
  rw [if_pos complete]
  rfl

theorem Record.continuedBy.refl (x : Record) : x.continuedBy x := ⟨rfl, rfl, rfl, List.prefix_rfl⟩
theorem Record.continuedBy.trans {x y z : Record} (h : x.continuedBy y) (k : y.continuedBy z) : x.continuedBy z := by
  obtain ⟨number, slot, endIndex, results⟩ := h
  obtain ⟨number', slot', endIndex', results'⟩ := k
  exact ⟨number'.trans number, slot'.trans slot, endIndex'.trans endIndex, results.trans results'⟩
theorem Record.continuedBy_addResult (r : Record) (x : StepResult) : r.continuedBy (r.addResult x) := by
  unfold Record.addResult
  split
  · exact ⟨rfl, rfl, rfl, List.prefix_append _ _⟩
  · exact .refl r
theorem Record.continuedBy_headed (r : Record) (s : State) (o : RoundOutcome) : r.continuedBy (r.headed s o) := .refl r

theorem Composition.GoesOn.refl (x : Composition) : x.GoesOn x := ⟨.refl _, fun _ => rfl⟩
theorem Composition.GoesOn.trans {x y z : Composition} (h : x.GoesOn y) (k : y.GoesOn z) : x.GoesOn z := by
  refine ⟨h.1.trans k.1, fun complete => ?_⟩
  obtain rfl := h.2 complete
  exact k.2 complete
theorem Composition.GoesOn.of_incomplete {x y : Composition} (h : x.record.continuedBy y.record) (unfinished : x.complete ≠ true) :
    x.GoesOn y := ⟨h, fun complete => absurd complete unfinished⟩

theorem Selector.KeepsCopy.refl (t : Selector) : t.KeepsCopy t := ⟨fun _ => id, fun _ => id⟩
theorem Flagging.refl (s : State) : Flagging s s :=
  ⟨rfl, fun _ => id, fun _ => ⟨rfl, id⟩, .refl _, fun _ _ => ⟨rfl, fun _ => id⟩⟩
theorem Composing.refl (s : State) : Composing s s := ⟨.refl s, rfl, rfl, id, id, fun _ x h => ⟨x, h, .refl x⟩⟩

section
variable {s t u : State}

theorem Flagging.trans (h : Flagging s t) (k : Flagging t u) : Flagging s u := by
  refine ⟨k.settings.trans h.settings, fun f x => k.flags f (h.flags f x), fun policy => ?_,
    ⟨fun i x => h.tx.copy i (k.tx.copy i x), fun i x => h.tx.mark i (k.tx.mark i x)⟩, fun copy mark => ?_⟩
  · obtain ⟨dropped, flag⟩ := h.dropped policy
    obtain ⟨dropped', flag'⟩ := k.dropped (by rw [h.settings]; exact policy)
    exact ⟨dropped'.trans dropped, fun x => flag' (flag x)⟩
  · obtain ⟨carried, renewal⟩ := h.shown (k.tx.copy _ copy) (k.tx.mark .status mark)
    obtain ⟨carried', renewal'⟩ := k.shown copy mark
    exact ⟨carried'.trans carried, fun i x => renewal' i (renewal i x)⟩
theorem Composing.trans (h : Composing s t) (k : Composing t u) : Composing s u := by
  refine ⟨h.toFlagging.trans k.toFlagging, k.queue.trans h.queue, k.next.trans h.next, fun x => k.fits (h.fits x),
    fun x => k.unbegun (h.unbegun x), fun fits x comp => ?_⟩
  obtain ⟨y, comp', on⟩ := h.comp fits x comp
  obtain ⟨z, comp'', on'⟩ := k.comp (h.fits fits) y comp'
  exact ⟨z, comp'', on.trans on'⟩

theorem State.RecordFits.congr (h : s.RecordFits) (state : t.seq.state = s.seq.state) (comp : t.log.comp = s.log.comp) :
    t.RecordFits := by
  obtain ⟨idle, complete⟩ := h
  rw [← state, ← comp] at idle
  rw [← state, ← comp] at complete
  exact ⟨idle, complete⟩

/-- An operation that leaves round state, record and queue. -/
theorem Composing.still (h : Composing s t) (k : Flagging t u) (state : u.seq.state = t.seq.state) (comp : u.log.comp = t.log.comp)
    (queue : u.log.queue = t.log.queue) (next : u.log.nextFragment = t.log.nextFragment) : Composing s u :=
  h.trans ⟨k, queue, next, fun fits => fits.congr state comp, comp.trans, fun _ x is => ⟨x, comp.trans is, .refl x⟩⟩
end

/-! ### Replacement marks -/

theorem Marks.get_put_of_ne {m : Marks} {v : Bool} {slot k : SlotId} (h : k ≠ slot) : (m.put v slot).get k = m.get k := by
  cases slot with
  | product i =>
    cases k with
    | product j => exact (modAt_get m.product i j _).trans (if_neg fun same => h (by rw [same]))
    | _ => rfl
  | own => cases k with
    | own => exact absurd rfl h
    | _ => rfl
  | status => cases k with
    | status => exact absurd rfl h
    | _ => rfl
  | stream => cases k with
    | stream => exact absurd rfl h
    | _ => rfl

/-- A slot that is replaced has its mark set, and no other mark changes (R156). -/
theorem Selector.KeepsCopy.replaced (t : Selector) (slot : SlotId) : t.KeepsCopy (t.replaced slot) := by
  unfold Selector.replaced
  split
  · refine ⟨fun _ => id, fun k clear => ?_⟩
    by_cases same : k = slot
    · subst same
      exact absurd ((Marks.get_put _ _ _).symm.trans clear) nofun
    · exact (Marks.get_put_of_ne same).symm.trans clear
  · exact .refl t

/-! ### Flags -/

section
variable {s t : State} (h : Flagging s t)
include h

theorem Flagging.onTx (f : Selector → Selector) (k : t.tx.KeepsCopy (f t.tx)) : Flagging s (t.onTx f) :=
  h.trans ⟨rfl, fun _ => id, fun _ => ⟨rfl, id⟩, k, fun _ _ => ⟨rfl, fun _ => id⟩⟩
/-- A change apart from settings, selector and record unit. -/
theorem Flagging.apart {u : State} (settings : u.settings = t.settings) (tx : u.tx = t.tx) (log : u.log = t.log) : Flagging s u := by
  have flag (g : Sticky) : u.flag g = t.flag g := by unfold State.flag; rw [log]
  refine h.trans ⟨settings, fun g k => (flag g).trans k, fun _ => ⟨by rw [log], fun k => (flag _).trans k⟩, ?_, fun _ _ => ?_⟩
  · rw [tx]
    exact .refl _
  · rw [log]
    exact ⟨rfl, fun _ k => k⟩
theorem Flagging.onSeq (f) : Flagging s (t.onSeq f) := h.apart rfl rfl rfl
theorem Flagging.onVer (f) : Flagging s (t.onVer f) := h.apart rfl rfl rfl
/-- A change of the records alone. -/
theorem Flagging.onLog (f : Log → Log) (flags : (f t.log).flags = t.log.flags) (dropped : (f t.log).dropped = t.log.dropped)
    (carried : (f t.log).carried = t.log.carried) (renewal : (f t.log).renewal = t.log.renewal) : Flagging s (t.onLog f) := by
  have same (g : Sticky) : (t.onLog f).flag g = t.flag g := congrArg (fun w : Word16 => w.getLsbD g.index) flags
  exact h.trans ⟨rfl, fun g k => by rw [same]; exact k, fun _ => ⟨dropped, fun k => by rw [same]; exact k⟩, .refl _,
    fun _ _ => ⟨carried, fun i k => by rw [State.onLog_log, renewal]; exact k⟩⟩
theorem Flagging.beginRecord : Flagging s t.beginRecord := h.onLog _ rfl rfl rfl rfl
theorem Flagging.sticky (f) (kept : t.settings.policy = .holdRounds → f ≠ .recordDropped) : Flagging s (t.sticky f) := by
  have set (g : Sticky) : (t.sticky f).flag g = (t.flag g || decide (f = g)) := t.log.isSet_setFlag f g
  refine h.trans ⟨rfl, fun g k => by rw [set, k]; rfl, fun policy => ⟨rfl, fun k => ?_⟩, .refl _,
    fun _ _ => ⟨rfl, fun i k => ?_⟩⟩
  · rw [set, k, decide_eq_false (kept policy)]
    rfl
  · show (t.log.renewal ||| f.mask).getLsbD i = true
    rw [BitVec.getLsbD_or, k]
    rfl
/-- A STATUS made replaces the one on the medium, if any: what that one carried no longer counts (R156, R172). -/
theorem Flagging.makeStatus : Flagging s t.makeStatus := by
  have tx : t.tx.KeepsCopy t.makeStatus.tx :=
    ⟨(Selector.KeepsCopy.replaced t.tx .status).copy, (Selector.KeepsCopy.replaced t.tx .status).mark⟩
  exact h.trans ⟨rfl, fun _ => id, fun _ => ⟨rfl, id⟩, tx, fun copy clear =>
    absurd ((t.makeStatus_tx.2 (tx.copy _ copy)).symm.trans clear) nofun⟩
theorem Flagging.setRound (r) : Flagging s (t.setRound r) := by
  unfold State.setRound; split <;> [exact h; exact (h.onSeq _).makeStatus]
/-- The oldest record gives way under DROP_OLDEST alone (R168). -/
theorem Flagging.takeRecord : Flagging s t.takeRecord := by
  unfold State.takeRecord
  split
  · exact h
  rename_i r _
  split
  · exact h.onLog _ rfl rfl rfl rfl
  split
  · rename_i drops
    have other : t.settings.policy ≠ .holdRounds := by rw [drops]; nofun
    have replaced : Flagging s (t.onTx fun x => x.replaced .stream) := h.onTx _ (.replaced _ _)
    have left : Flagging (t.onTx fun x => x.replaced .stream) ((t.onTx fun x => x.replaced .stream).onLog fun l =>
        ({ l.dropHead with dropped := min (l.dropped + 1) 255 }).append r) :=
      ⟨rfl, fun _ k => k, fun policy => absurd policy other, .refl _, fun _ _ => ⟨rfl, fun _ k => k⟩⟩
    exact (replaced.trans left).sticky _ fun policy => absurd policy other
  · exact h
end

/-! ### Single changes -/

section
variable {s t : State} (h : Composing s t)
include h

theorem Composing.onTx (f : Selector → Selector) (k : t.tx.KeepsCopy (f t.tx)) : Composing s (t.onTx f) :=
  h.still ((Flagging.refl t).onTx f k) rfl rfl rfl rfl
/-- A change apart from settings, round state, selector and record unit. -/
theorem Composing.apart {u : State} (settings : u.settings = t.settings) (state : u.seq.state = t.seq.state) (tx : u.tx = t.tx)
    (log : u.log = t.log) : Composing s u :=
  h.still ((Flagging.refl t).apart settings tx log) state (by rw [log]) (by rw [log]) (by rw [log])
theorem Composing.onSeq (f : Sequencer → Sequencer) (state : (f t.seq).state = t.seq.state) : Composing s (t.onSeq f) :=
  h.apart rfl state rfl rfl
theorem Composing.onVer (f) : Composing s (t.onVer f) := h.apart rfl rfl rfl rfl
theorem Composing.onAdm (f) : Composing s (t.onAdm f) := h.apart rfl rfl rfl rfl
theorem Composing.onUpdates (f) : Composing s (t.onUpdates f) := h.apart rfl rfl rfl rfl
theorem Composing.onBoard (f) : Composing s (t.onBoard f) := h.apart rfl rfl rfl rfl
theorem Composing.onPort (f) : Composing s (t.onPort f) := h.apart rfl rfl rfl rfl
theorem Composing.onLoader (f) : Composing s (t.onLoader f) := h.apart rfl rfl rfl rfl
theorem Composing.onLink (f) : Composing s (t.onLink f) := h.apart rfl rfl rfl rfl
end

end Sys2Proof.Machine
end

section
/-! What the operations of the round sequencer and of the admission unit make of the record under composition (R33 to R54, R74 to R90,
R165): it goes on, and an attempt that ends appends its result. -/

namespace Sys2Proof.Machine

/-! ### Flags, slots and the queue of operations -/

section
variable {s t : State} (h : Composing s t)
include h

theorem Composing.sticky (f : Sticky) (other : f ≠ .recordDropped) : Composing s (t.sticky f) :=
  h.still ((Flagging.refl t).sticky f fun _ => other) rfl rfl rfl rfl
theorem Composing.stickyIf (c) (f : Sticky) (other : f ≠ .recordDropped) : Composing s (t.stickyIf c f) := by
  unfold State.stickyIf; split <;> [exact h.sticky f other; exact h]
/-- Content placed in a class-A slot leaves the marks that replacing it has set (R156). -/
theorem Composing.placed (slot : SlotId) (f : Selector → Selector → Selector)
    (kept : ∀ x y : Selector, (f x y).copyFrom = y.copyFrom ∧ (f x y).marks = y.marks) :
    Composing s (t.onTx fun x => f x (x.replaced slot)) := by
  obtain ⟨copy, marks⟩ := kept t.tx (t.tx.replaced slot)
  have replaced := Selector.KeepsCopy.replaced t.tx slot
  exact h.onTx _ ⟨fun k x => replaced.copy k (copy.symm.trans x), fun k x => replaced.mark k (by rw [← marks]; exact x)⟩
theorem Composing.placeOwn (c) : Composing s (t.placeOwn c) := h.placed .own (fun _ y => { y with own := c }) fun _ _ => ⟨rfl, rfl⟩
theorem Composing.placeProduct (i c) : Composing s (t.placeProduct i c) :=
  h.placed (.product i) (fun x y => { y with product := modAt x.product i fun _ => c }) fun _ _ => ⟨rfl, rfl⟩
theorem Composing.enter (o) : Composing s (t.onAdm (Admission.enter o)) := h.onAdm _
theorem Composing.makeStatus : Composing s t.makeStatus := h.still (Flagging.refl t).makeStatus rfl rfl rfl rfl
theorem Composing.enqueue (op) : Composing s (t.enqueue op) := by
  unfold State.enqueue
  dsimp only
  split
  · exact (((h.onUpdates _).onUpdates _).onLink _).sticky _ (by decide)
  · exact h.onUpdates _
theorem Composing.dequeue : Composing s t.dequeue := by
  unfold State.dequeue
  dsimp only
  split
  · exact ((h.onUpdates _).onUpdates _).onLink _
  · exact h.onUpdates _
theorem Composing.placeOp (op) : Composing s (t.placeOp op) := by
  unfold State.placeOp; split <;> [exact (h.onAdm _).enqueue _; exact h.onAdm _]
theorem Composing.opDone : Composing s t.opDone := by
  unfold State.opDone; split <;> [exact h.onAdm _; exact (h.onAdm _).enqueue _]
theorem Composing.requestEval (b) : Composing s (t.requestEval b) := by
  rcases t.requestEval_cases b with ⟨-, e⟩ | ⟨-, -, e⟩ | ⟨-, -, e⟩ <;> rw [e]
  · exact h
  · exact (h.onAdm _).placeOp _
  · exact h.onAdm _
end

/-! ### Round states, attempts and requests -/

section
variable {s t : State} (h : Composing s t)
include h

/-- A round that is not CLOSING changes its state (R74). -/
theorem Composing.setRound (active : t.seq.state ≠ .closing) {r : RoundState} (some' : r ≠ .idle) : Composing s (t.setRound r) := by
  have records := t.setRound_records r
  refine h.trans ⟨(Flagging.refl t).setRound r, records.queue, records.next, fun fits => ⟨fun idle => ?_, fun x comp complete => ?_⟩,
    records.comp.trans, fun _ x comp => ⟨x, records.comp.trans comp, .refl x⟩⟩
  · rw [State.setRound_seq] at idle
    exact absurd idle some'
  · exact absurd (fits.complete x (records.comp.symm.trans comp) complete) active
theorem Composing.enterRunning (active : t.seq.state ≠ .closing) : Composing s t.enterRunning :=
  Composing.setRound ((h.onSeq _ rfl).onVer _) (by exact active) (by decide)
theorem Composing.restartAttempt (active : t.seq.state ≠ .closing) : Composing s t.restartAttempt :=
  Composing.setRound ((h.onSeq _ rfl).onVer _) (by exact active) (by decide)
theorem Composing.reportWaiting : Composing s t.reportWaiting := by
  unfold State.reportWaiting
  split
  · split
    · rename_i claiming
      exact h.setRound (by rw [claiming]; nofun) (by decide)
    · rename_i running
      exact h.restartAttempt (by rw [running]; nofun)
    · exact h
  · exact h
theorem Composing.reportClaiming : Composing s t.reportClaiming := by
  unfold State.reportClaiming
  split
  · split
    · rename_i waiting
      exact h.setRound (by rw [waiting]; nofun) (by decide)
    · exact h
  · exact h
theorem Composing.reportRunning : Composing s t.reportRunning := by
  unfold State.reportRunning
  split
  · split
    · rename_i waiting
      exact h.enterRunning (by rw [waiting]; nofun)
    · rename_i claiming
      exact h.enterRunning (by rw [claiming]; nofun)
    · exact h
  · exact h
theorem Composing.placeAnnounce (st l) : Composing s (t.placeAnnounce st l) := (h.placeOwn _).onAdm _
theorem Composing.updateOwn (st) : Composing s (t.updateOwn st) := h.placeOp _
theorem Composing.releaseRequest : Composing s t.releaseRequest := by
  unfold State.releaseRequest
  split
  · exact h
  rename_i st _
  dsimp only
  have withdrawn := h.onAdm fun a => { a with standing := none, framePlaced := false }
  split
  · exact withdrawn
  have removed := (withdrawn.placeOp (.ownRemove .cip (resourcesOf st.pairs))).enter .none
  split <;> [exact removed.placeOwn _; exact removed]
theorem Composing.receiveRequest (p g) : Composing s (t.receiveRequest p g) := by
  unfold State.receiveRequest
  dsimp only
  split <;> [exact h.onAdm _; exact h.releaseRequest.onAdm _]
theorem Composing.takeRequest : Composing s t.takeRequest := by
  unfold State.takeRequest
  split
  · exact h
  · split <;> [exact (((h.placeOp _).enter _).reportWaiting).requestEval _; exact h]
theorem Composing.chainRequest (p g) : Composing s (t.chainRequest p g) := by
  unfold State.chainRequest
  split
  · exact (((h.onAdm _).placeOp _).placeAnnounce _ _).reportRunning
  · exact (h.receiveRequest _ _).takeRequest
theorem Composing.releaseIfClaims : Composing s t.releaseIfClaims := by
  unfold State.releaseIfClaims; split <;> [exact h; exact h.releaseRequest]
theorem Composing.openAttempt (i) : Composing s (t.openAttempt i) := ((h.onSeq _ rfl).onSeq _ rfl).onVer _
theorem Composing.proceed (active : t.seq.state ≠ .closing) : Composing s t.proceed := by
  unfold State.proceed
  split
  · exact h.enterRunning active
  · rename_i p ps _
    have seq : (t.receiveRequest (p :: ps) t.seq.tag).seq = t.seq := (t.receiveRequest_spec _ _).frame.seq (by decide)
    exact ((h.receiveRequest _ _).setRound (by rw [seq]; exact active) (by decide)).takeRequest
theorem Composing.enterStep (active : t.seq.state ≠ .closing) (i c) : Composing s (t.enterStep i c) := by
  unfold State.enterStep
  dsimp only
  split <;> [exact (h.openAttempt _).setRound active (by decide); exact (h.openAttempt _).proceed active]
theorem Composing.enterChained (i) : Composing s (t.enterChained i) :=
  (((h.openAttempt i).onSeq _ rfl).onVer _).chainRequest _ _
theorem Composing.standAgain (active : t.seq.state ≠ .closing) : Composing s t.standAgain := by
  unfold State.standAgain
  split
  · exact h.setRound active (by decide)
  · split <;> [exact h.enterRunning active; exact h.setRound active (by decide)]
theorem Composing.resumeRound (confirmed) : Composing s (t.resumeRound confirmed) := by
  unfold State.resumeRound
  split
  · rename_i resumes
    refine Composing.enterStep (h.onSeq _ rfl) ?_ _ _
    rw [State.onSeq_seq, resumes.1]
    nofun
  · exact h

/-- A result joins a record that is not yet complete, while there is room for it (R165). -/
theorem Composing.handResult (active : t.seq.state ≠ .closing) (x) : Composing s (t.handResult x) := by
  have written (c : Composition) : c.record.continuedBy (c.record.addResult x) := c.record.continuedBy_addResult x
  refine h.trans ⟨(Flagging.refl t).onLog _ rfl rfl rfl rfl, rfl, rfl, fun fits => ⟨fun idle => ?_, fun y comp complete => ?_⟩,
    congrArg (Option.map _), fun fits y comp => ⟨{ y with record := y.record.addResult x }, ?_,
      .of_incomplete (written y) fun complete => active (fits.complete y comp complete)⟩⟩
  · exact congrArg (Option.map _) (fits.idle idle)
  · obtain ⟨c, record, rfl⟩ := Option.map_eq_some_iff.1 comp
    exact absurd (fits.complete c record complete) active
  · exact congrArg (Option.map _) comp
theorem Composing.endAttempt (active : t.seq.state ≠ .closing) (o) : Composing s (t.endAttempt o) := by
  unfold State.endAttempt
  split <;> [exact ((h.onVer _).handResult active _).onSeq _ rfl; exact h]
theorem Composing.haltAttempt (active : t.seq.state ≠ .closing) (o) : Composing s (t.haltAttempt o) :=
  (h.endAttempt active _).onSeq _ rfl
theorem Composing.enterSuspended (active : t.seq.state ≠ .closing) (c) : Composing s (t.enterSuspended c) :=
  Composing.setRound (h.onSeq _ rfl) (by exact active) (by decide)
end

/-- An attempt that ends leaves the round state. -/
theorem State.haltAttempt_state (t : State) (o) : (t.haltAttempt o).seq.state = t.seq.state :=
  congrArg RoundView.state (t.roundView_haltAttempt o)

section
variable {s t : State} (h : Composing s t)
include h

theorem Composing.suspend (active : t.seq.state ≠ .closing) (c) : Composing s (t.suspend c) := by
  have state : (t.haltAttempt c.outcome).releaseIfClaims.seq.state = t.seq.state :=
    (congrArg RoundView.state (State.roundView_releaseIfClaims _)).trans (t.haltAttempt_state _)
  exact (h.haltAttempt active _).releaseIfClaims.enterSuspended (by rw [state]; exact active) c

/-! ### Stop causes -/

theorem Composing.stopReported (c) : Composing s (t.stopReported (t.stopReply c)) := by
  rcases t.stopReply_cases c with e | ⟨attempting, ⟨k, e⟩ | e⟩ | ⟨claiming, e⟩ <;> rw [e]
  · exact h
  all_goals have active : t.seq.state ≠ .closing := fun k => by simp_all [RoundState.attempting]
  · exact (h.haltAttempt active _).enterSuspended (by rw [State.haltAttempt_state]; exact active) k
  · refine ((h.haltAttempt active _).openAttempt _).standAgain ?_
    show (t.haltAttempt .shed).seq.state ≠ .closing
    rw [State.haltAttempt_state]
    exact active
  · exact h.setRound active (by decide)
theorem Composing.stopAnswered (a) : Composing s (t.stopAnswered a) := by
  unfold State.stopAnswered
  split
  · exact h
  · exact h
  · exact h.releaseIfClaims
  · split <;> [exact h.releaseRequest; exact (h.receiveRequest _ _).takeRequest]
theorem Composing.stopRun (c) : Composing s (t.stopRun c) :=
  (((((h.stopReported c).stickyIf _ _ (by decide)).placeOp _).enter _).placeOwn _).stopAnswered _
theorem Composing.actVerdict (v) : Composing s (t.actVerdict v) := by
  unfold State.actVerdict
  split
  · split <;> [exact h.stopRun _; exact h]
  · exact h

/-! ### Claims, outcomes and results -/

theorem Composing.claim : Composing s t.claim := (((h.updateOwn _).placeAnnounce _ _).enter _).reportClaiming
theorem Composing.stayWaiting : Composing s t.stayWaiting := by
  unfold State.stayWaiting; split <;> [exact h; exact h.placeAnnounce _ _]
theorem Composing.yieldStep : Composing s t.yieldStep := (((h.updateOwn _).placeAnnounce _ _).enter _).reportWaiting
theorem Composing.runPending : Composing s t.runPending := ((h.placeAnnounce _ _).enter _).reportClaiming
theorem Composing.grant : Composing s t.grant := ((h.updateOwn _).enter _).onAdm _
theorem Composing.lapseRunPending : Composing s t.lapseRunPending := (((h.placeOwn _).updateOwn _).enter _).reportWaiting
theorem Composing.notice (rs) : Composing s (t.notice rs) := by
  unfold State.notice; split <;> [exact h.requestEval _; exact h]
theorem Composing.hallResult (rs) : Composing s (t.hallResult rs) := (h.notice _).actVerdict _
theorem Composing.ownResult (rs) : Composing s (t.ownResult rs) := h.opDone.actVerdict _
theorem Composing.updateResult (st rs) : Composing s (t.updateResult st rs) := by
  unfold State.updateResult
  dsimp only
  split
  · split <;> [exact h.opDone.stopRun _; exact (h.opDone.onAdm _).reportRunning]
  · exact h.opDone.actVerdict _
theorem Composing.actOutcome (o settle) : Composing s (t.actOutcome o settle) := by
  unfold State.actOutcome
  split
  · exact h
  · exact h
  · split <;> [exact h.claim; exact h.stayWaiting]
  · split
    · split <;> [exact h.runPending; exact h]
    · exact h.yieldStep
  · split <;> [exact h; exact h.yieldStep]
theorem Composing.requestWanted : Composing s t.requestWanted := by
  unfold State.requestWanted; split <;> [exact (h.onAdm _).requestEval _; exact h]
theorem Composing.outcome (o) : Composing s (t.outcome o) := by
  unfold State.outcome
  have done := (h.onAdm fun a => { a with evalReq := none }).opDone
  dsimp only
  split
  · split <;> [exact (done.actOutcome _ _).requestWanted; exact done.requestWanted]
  · exact done.requestWanted
theorem Composing.ageStep : Composing s t.ageStep := by
  have raised := (h.onAdm fun a => { a with urgency := a.urgency + 1 }).updateOwn .waiting
  unfold State.ageStep
  dsimp only
  split <;> [exact (raised.placeAnnounce _ _).requestEval _; exact raised.requestEval _]

/-! ### Product holds and deliveries -/

theorem Composing.placeHold (i r) : Composing s (t.placeHold i r) := h.placeProduct _ _
theorem Composing.judgeHold (i) : Composing s (t.judgeHold i) := by
  unfold State.judgeHold
  split
  · exact h
  split
  · split
    · exact ((h.placeOp _).onAdm _).placeHold _ _
    · split <;> [exact ((h.placeOp _).onAdm _).placeProduct _ _; exact h]
  · exact h
theorem Composing.judgeHolds : Composing s t.judgeHolds :=
  List.foldlRecOn (motive := fun u : State => Composing s u) allFour State.judgeHold h fun _ k i _ => k.judgeHold i
theorem Composing.dropHold (i) : Composing s (t.dropHold i) := by
  unfold State.dropHold
  split
  · split <;> [exact (h.placeOp _).onAdm _; exact h.onAdm _]
  · exact h
theorem Composing.ownDelivered (c) : Composing s (t.ownDelivered c) := by
  have kept := h.onAdm fun a => { a with last := some c }
  unfold State.ownDelivered
  dsimp only
  split
  · exact kept.onAdm _
  · exact kept.grant
  · exact kept.onAdm _
  · exact kept.onAdm _
  · exact kept
theorem Composing.productDelivered (i c) : Composing s (t.productDelivered i c) := by
  unfold State.productDelivered; split <;> [exact h.onAdm _; exact h]

/-! ### Link states -/

theorem Composing.admReticent : Composing s t.admReticent := by
  unfold State.admReticent; split <;> [exact h.yieldStep; exact h]
theorem Composing.admEngaged : Composing s t.admEngaged := by
  unfold State.admEngaged; split <;> [exact h.requestEval _; exact h]
theorem Composing.stepLetGo : Composing s t.stepLetGo := by
  unfold State.stepLetGo
  split <;> [exact h.stopRun _; exact h; exact (h.placeOp _).enter _]
theorem Composing.admDetached : Composing s t.admDetached := by
  rw [State.admDetached_eq]
  have dropped := List.foldlRecOn (motive := fun u : State => Composing s u) allFour State.dropHold h.stepLetGo
    fun _ k i _ => k.dropHold i
  exact (List.foldlRecOn (motive := fun u : State => Composing s u) allFour _ (dropped.placeOwn none)
    fun _ k i _ => k.placeProduct i none).onAdm _
theorem Composing.seqDetached : Composing s t.seqDetached := by
  unfold State.seqDetached
  split
  · rename_i claiming
    exact h.setRound (by rw [claiming]; nofun) (by decide)
  · rename_i running
    split <;> [exact h; exact h.suspend (by rw [running]; nofun) _]
  · exact h
theorem Composing.seqBarred : Composing s t.seqBarred := by
  have emptied := h.onSeq (fun q => { q with pendingSet := Vector.replicate 4 none }) rfl
  unfold State.seqBarred
  dsimp only
  split
  case h_5 => exact emptied
  all_goals
    rename_i state
    refine emptied.suspend ?_ _
    rw [State.onSeq_seq, state]
    nofun
theorem Composing.enterDetached : Composing s t.enterDetached := ((h.onLink _).seqDetached).admDetached
theorem Composing.enterBarred : Composing s t.enterBarred :=
  (((h.onLink _).onTx _ ⟨fun _ => id, fun _ => id⟩).seqBarred).admDetached
theorem Composing.judgeLink : Composing s t.judgeLink := by
  unfold State.judgeLink
  split
  · exact h.enterDetached
  split
  · exact ((h.onLink _).sticky _ (by decide)).admReticent
  split
  · exact (h.onLink _).admEngaged
  · exact h
theorem Composing.moveCounts (tec rec') : Composing s (t.moveCounts tec rec') := by
  unfold State.moveCounts; split <;> [exact h; exact (h.onLink _).judgeLink]
theorem Composing.tecMove (o) : Composing s (t.tecMove o) := by
  unfold State.tecMove
  split
  · exact h.moveCounts _ _
  · exact h.moveCounts _ _
  · exact h.moveCounts _ _
  · exact h
theorem Composing.frameOver (a) : Composing s (t.frameOver a) := h.onLink _
theorem Composing.checkFailed (a) : Composing s (t.checkFailed a) := by
  have ended := h.frameOver a
  unfold State.checkFailed
  dsimp only
  split
  · exact ended.moveCounts _ _
  · exact ended.moveCounts _ _
  · exact ended.onLink _
  · exact ended

/-! ### The list controller and the inputs -/

theorem Composing.carryAnnouncement (a) : Composing s (t.carryAnnouncement a) := by
  unfold State.carryAnnouncement
  split
  · exact h.dequeue.hallResult _
  · exact (((h.onBoard _).stickyIf _ _ (by decide)).stickyIf _ _ (by decide)).dequeue.hallResult _
theorem Composing.carryRelease (o r w) : Composing s (t.carryRelease o r w) := by
  unfold State.carryRelease
  dsimp only
  split <;> [exact h.dequeue.hallResult _; exact (h.onBoard _).dequeue.hallResult _]
theorem Composing.carryInhibit (v w) : Composing s (t.carryInhibit v w) := ((h.onBoard _).sticky _ (by decide)).dequeue.hallResult _
theorem Composing.carryInsert (r p k st) : Composing s (t.carryInsert r p k st) :=
  ((h.onBoard _).stickyIf _ _ (by decide)).dequeue.ownResult _
theorem Composing.carryUpdate (r p k st) : Composing s (t.carryUpdate r p k st) :=
  ((h.onBoard _).stickyIf _ _ (by decide)).dequeue.updateResult _ _
theorem Composing.carryRemove (r rs) : Composing s (t.carryRemove r rs) := (h.onBoard _).dequeue.ownResult _
theorem Composing.carryEvaluate : Composing s t.carryEvaluate := (h.dequeue.outcome _).actVerdict _
theorem Composing.confirmEdge : Composing s t.confirmEdge := by
  unfold State.confirmEdge
  split
  · rename_i holds
    exact h.proceed (by rw [holds]; nofun)
  · exact h.resumeRound _
  · exact h
end

end Sys2Proof.Machine
end

section
/-! The queue of records under HOLD_ROUNDS (R73, R94, R95, R165 to R169): the record of a round that ends joins the tail where there is
room, and the head alone leaves, after the current delivery of its last fragment. -/

namespace Sys2Proof.Machine

/-! ### The relation -/

/-- What becomes of the queue and of the record under composition: the head is gone or not, a record joined or not (R165 to R169). -/
structure Log.Files (a b : Log) (gone : Bool) (joined : Option Record) : Prop where
  queue : b.queue = (if gone then a.queue.tail else a.queue) ++ joined.toList
  goes : ∀ x, a.comp = some x → (∃ y, b.comp = some y ∧ x.GoesOn y) ∨
    (∃ r, joined = some r ∧ x.record.continuedBy r ∧ (x.complete = true → r = x.record))
  source : ∀ r, joined = some r → ∃ x, a.comp = some x ∧ x.record.continuedBy r

/-- Under HOLD_ROUNDS the head is gone or not, and one record at most joins. -/
structure Filed (gone : Bool) (s t : State) : Prop extends Flagging s t where
  files : s.settings.policy = .holdRounds → s.RecordFits → ∃ joined, s.log.Files t.log gone joined

section
variable {s t u : State}

theorem Composing.filed (h : Composing s t) : Filed false s t :=
  ⟨h.toFlagging, fun _ fits => ⟨none, by rw [h.queue]; exact (List.append_nil _).symm,
    fun x comp => .inl (h.comp fits x comp), nofun⟩⟩

/-- A record goes on, and is then filed. -/
theorem Composing.trans_filed {gone : Bool} (h : Composing s t) (k : Filed gone t u) : Filed gone s u := by
  refine ⟨h.toFlagging.trans k.toFlagging, fun policy fits => ?_⟩
  obtain ⟨joined, queue, goes, source⟩ := k.files (by rw [h.settings]; exact policy) (h.fits fits)
  refine ⟨joined, by rw [queue, h.queue], fun x comp => ?_, fun r is => ?_⟩
  · obtain ⟨y, comp', on⟩ := h.comp fits x comp
    rcases goes y comp' with ⟨z, comp'', on'⟩ | ⟨r, is, on', same⟩
    · exact .inl ⟨z, comp'', on.trans on'⟩
    · refine .inr ⟨r, is, on.1.trans on', fun complete => ?_⟩
      obtain rfl := on.2 complete
      exact same complete
  · obtain ⟨y, comp', on'⟩ := source r is
    cases comp : s.log.comp with
    | none => exact absurd ((h.unbegun comp).symm.trans comp') nofun
    | some x =>
      obtain ⟨z, comp'', on⟩ := h.comp fits x comp
      obtain rfl : z = y := Option.some.inj (comp''.symm.trans comp')
      exact ⟨x, rfl, on.1.trans on'⟩
end

/-! ### Rounds begun and ended -/

section
variable {s t : State} (h : Composing s t)
include h

/-- A round begins in IDLE, where no record is under composition, with a record of its own (R73, R166). -/
theorem Composing.takePending : Filed false s t.takePending := by
  unfold State.takePending
  split
  case isFalse => exact h.filed
  rename_i idle
  split
  · exact h.filed
  rename_i slot last _
  dsimp only
  obtain ⟨v, hv⟩ : ∃ v, v = ((t.onSeq fun q =>
      { q with
        pendingSet := modAt q.pendingSet slot fun _ => none, slot := slot, endIndex := last
        roundNumber := (q.roundNumber + 1) % 65536, startUptime := t.loader.uptime
        suspendCount := 0, lastCause := none }).beginRecord).onVer Verifier.roundStart := ⟨_, rfl⟩
  rw [← hv]
  have begun : Flagging t v := by
    rw [hv]
    exact (((Flagging.refl t).onSeq _).beginRecord).onVer _
  have active : v.seq.state ≠ .closing := by
    rw [hv]
    exact fun closing => absurd (idle.symm.trans closing) nofun
  have queue : v.log.queue = t.log.queue := by rw [hv]; rfl
  have entered := (Composing.refl v).enterStep active 0 false
  refine h.trans_filed ⟨begun.trans entered.toFlagging, fun _ fits => ⟨none, ?_, fun x comp => ?_, nofun⟩⟩
  · rw [entered.queue, queue]
    exact (List.append_nil _).symm
  · exact absurd ((fits.idle idle).symm.trans comp) nofun
theorem Composing.roundRequest (i e) : Filed false s (t.roundRequest i e) := by
  unfold State.roundRequest
  split
  · exact (h.sticky _ (by decide)).filed
  · exact Composing.takePending (h.onSeq _ rfl)

/-- A round whose record was taken ends, and the next one begins (R95). -/
theorem Composing.recordTaken : Filed false s t.recordTaken := by
  unfold State.recordTaken
  split
  case isFalse => exact h.filed
  rename_i taken
  have records := t.setRound_records .idle
  have none' : (t.setRound .idle).log.comp = none := records.comp.trans taken.2
  have idle : Composing t (t.setRound .idle) :=
    ⟨(Flagging.refl t).setRound _, records.queue, records.next,
      fun _ => ⟨fun _ => none', fun x comp => absurd (none'.symm.trans comp) nofun⟩,
      fun _ => none', fun _ x comp => absurd (taken.2.symm.trans comp) nofun⟩
  exact (h.trans idle).takePending

/-- A complete record joins the tail of the queue where there is room, and waits otherwise (R167, R168). -/
theorem Composing.takeRecord : Filed false s t.takeRecord.recordTaken := by
  have tail := (Composing.refl t.takeRecord).recordTaken
  by_cases complete : ∃ r, t.log.comp = some ⟨r, true⟩
  · obtain ⟨r, comp⟩ := complete
    by_cases takes : t.TakesRecord
    · have joined := State.takeRecord_joins comp takes
      refine h.trans_filed ⟨(Flagging.refl t).takeRecord.trans tail.toFlagging,
        fun policy _ => ⟨some r, ?_, fun x is => ?_, fun w is => ?_⟩⟩
      · have room : t.log.queue.length < 6 := takes.resolve_right (by rw [policy]; nofun)
        rw [(State.recordTaken_queue _).1, joined.queue, if_pos room]
        rfl
      · obtain rfl : (⟨r, true⟩ : Composition) = x := Option.some.inj (comp.symm.trans is)
        exact .inr ⟨r, rfl, .refl r, fun _ => rfl⟩
      · obtain rfl : r = w := Option.some.inj is
        exact ⟨_, comp, .refl r⟩
    · rw [State.takeRecord_waits comp takes]
      exact h.recordTaken
  · rw [State.takeRecord_of_unfinished fun w is => complete ⟨w, is⟩]
    exact h.recordTaken

/-- The header completes a record in composition, and the round is CLOSING (R94, R166). -/
theorem Composing.closed (active : t.seq.state ≠ .closing) (o) : Composing s (t.closed o) := by
  have released := ((h.releaseIfClaims.onSeq fun q =>
    { q with stepTimer := .stopped, pauseTimer := .stopped, suspendTimer := .stopped }) rfl).onVer Verifier.roundEnded
  have seq : t.releaseIfClaims.seq = t.seq := t.releaseIfClaims_spec.1.seq (by decide)
  unfold State.closed
  rw [← seq] at active
  obtain ⟨v, hv⟩ : ∃ v, v = (t.releaseIfClaims.onSeq fun q =>
    { q with stepTimer := .stopped, pauseTimer := .stopped, suspendTimer := .stopped }).onVer Verifier.roundEnded := ⟨_, rfl⟩
  have active' : v.seq.state ≠ .closing := by rw [hv]; exact active
  rw [← hv] at released ⊢
  have records := (v.completeRecord o).setRound_records .closing
  refine released.trans ⟨((Flagging.refl v).onLog _ rfl rfl rfl rfl).setRound _, records.queue, records.next,
    fun _ => ⟨fun idle => ?_, fun _ _ _ => ?_⟩, fun none' => ?_, fun fits x comp => ⟨⟨x.record.headed v o, true⟩, ?_, ?_⟩⟩
  · rw [State.setRound_seq] at idle
    cases idle
  · rw [State.setRound_seq]
  · exact records.comp.trans (congrArg (Option.map _) none')
  · exact records.comp.trans (congrArg (Option.map _) comp)
  · exact .of_incomplete (Record.continuedBy_headed _ _ _) fun complete => active' (fits.complete x comp complete)
theorem Composing.closeRound (active : t.seq.state ≠ .closing) (o) : Filed false s (t.closeRound o) := by
  rw [State.closeRound_eq]
  exact (h.closed active o).takeRecord
theorem Composing.cutRound (o) : Filed false s (t.cutRound o) := by
  unfold State.cutRound
  split
  · rename_i endable
    have active := (RoundState.endable_view endable).1
    have state : (t.endAttempt .cut).seq.state = t.seq.state := congrArg RoundView.state (t.roundView_endAttempt .cut)
    exact (h.endAttempt active _).closeRound (by rw [state]; exact active) o
  · exact h.filed

/-! ### Running a step -/

theorem Composing.attemptDone (running : t.seq.state = .running) : Filed false s t.attemptDone := by
  have active : t.seq.state ≠ .closing := by rw [running]; nofun
  have done : Composing s t.doneAttempt := ((h.endAttempt active _).stickyIf _ _ (by decide)).onSeq _ rfl
  have state : t.doneAttempt.seq.state = t.seq.state := congrArg RoundView.state t.roundView_doneAttempt
  rw [← state] at active
  unfold State.attemptDone
  rw [← State.doneAttempt]
  dsimp only
  split
  · exact done.closeRound active _
  split
  · exact (done.enterChained _).filed
  · have seq : t.doneAttempt.releaseIfClaims.seq = t.doneAttempt.seq := (State.releaseIfClaims_spec _).1.seq (by decide)
    exact (done.releaseIfClaims.enterStep (by rw [seq]; exact active) _ _).filed
theorem Composing.burstComplete : Filed false s t.burstComplete := by
  unfold State.burstComplete
  split
  · rename_i inBurst
    split
    · dsimp only
      split
      · exact (Composing.onVer ((h.onSeq _ rfl).onSeq _ rfl) _).filed
      · exact (Composing.onVer (h.onSeq _ rfl) _).filed
    · exact (h.onVer _).attemptDone inBurst.1
  · exact h.filed
theorem Composing.sensorLostReport : Composing s t.sensorLostReport := by
  unfold State.sensorLostReport
  split
  · rename_i inBurst
    exact h.suspend (by rw [inBurst.1]; nofun) _
  · exact h
theorem Composing.takeSample (x) : Filed false s (t.takeSample x) := by
  unfold State.takeSample
  have taken := (h.onVer fun _ => (t.ver.takeSample t.settings.sampleMs t.settings.sensorLimit t.curStep
    (t.convSet t.curStep) x).ver).stickyIf (t.ver.takeSample t.settings.sampleMs t.settings.sensorLimit t.curStep
    (t.convSet t.curStep) x).sensorAbsent .sensorAbsent (by decide)
  dsimp only
  split
  · exact taken.filed
  · exact taken.burstComplete
  · exact taken.sensorLostReport.filed
theorem Composing.noReply : Filed false s t.noReply := ((h.onPort _).stickyIf _ _ (by decide)).takeSample _
theorem Composing.validReply (bytes) : Filed false s (t.validReply bytes) := (h.onPort _).takeSample _
theorem Composing.stopActive : Filed false s t.stopActive :=
  ((h.onSeq (fun q => { q with pendingSet := Vector.replicate 4 none }) rfl).stickyIf _ _ (by decide)).cutRound _

/-! ### Frames of other stations -/

theorem Composing.command (c) : Filed false s (t.command c) := by
  unfold State.command
  split
  · exact h.roundRequest _ _
  · exact h.cutRound _
  · exact (h.resumeRound _).filed
  · exact h.makeStatus.filed
theorem Composing.enqueueIf (o) : Composing s (t.enqueueIf o) := by
  unfold State.enqueueIf; split <;> [exact h.enqueue _; exact h]
theorem Composing.handOn (k f) : Filed false s (t.handOn k f) := by
  unfold State.handOn
  split
  · exact (h.enqueueIf _).filed
  · exact (h.enqueueIf _).filed
  · exact (h.enqueueIf _).filed
  · exact (h.enqueueIf _).filed
  · split <;> [exact h.command _; exact h.filed]
  · exact h.filed
theorem Composing.deliveredFrame (k f) : Filed false s (t.deliveredFrame k f) := by
  unfold State.deliveredFrame
  split
  · exact h.enterBarred.filed
  split
  · have lowered : Composing s t.recDown := h.moveCounts _ _
    dsimp only
    split <;> [exact lowered.handOn _ _; exact lowered.filed]
  · exact h.filed
theorem Composing.receiveFrame (k f) : Filed false s (t.receiveFrame k f) := by
  unfold State.receiveFrame
  split
  · split
    · dsimp only
      split <;> [exact (h.frameOver _).deliveredFrame _ _; exact (h.frameOver _).filed]
    · exact (h.checkFailed _).filed
  · exact h.filed

/-! ### Current deliveries -/

theorem Composing.ownSlotDelivered : Composing s (t.currentDelivery .own) := by
  unfold State.currentDelivery
  dsimp only
  split <;> [exact (h.onTx _ ⟨fun _ => id, fun _ => id⟩).ownDelivered _; exact h]
theorem Composing.productSlotDelivered (i) : Composing s (t.currentDelivery (.product i)) := by
  unfold State.currentDelivery
  dsimp only
  split <;> [exact (h.onTx _ ⟨fun _ => id, fun _ => id⟩).productDelivered _ _; exact h]

/-- The current delivery of a fragment: the next one is offered, or after the last the head leaves the queue (R168, R169). -/
theorem Composing.fragmentDelivered : Filed false s t.fragmentDelivered ∨ Filed true s t.fragmentDelivered ∧
    ∃ r rest, s.log.queue = r :: rest ∧ r.fragmentCount ≤ s.log.nextFragment + 1 := by
  cases queue : t.log.queue with
  | nil =>
    unfold State.fragmentDelivered
    rw [queue]
    exact .inl h.filed
  | cons r rest =>
    by_cases more : t.log.nextFragment + 1 < r.fragmentCount
    · rw [State.fragmentDelivered_more queue more]
      refine .inl (h.trans_filed ⟨(Flagging.refl t).onLog _ rfl rfl rfl rfl, fun _ _ => ⟨none, ?_, fun x comp => ?_, nofun⟩⟩)
      · exact (List.append_nil _).symm
      · exact .inl ⟨x, comp, .refl x⟩
    · rw [State.fragmentDelivered_last queue more]
      have left : Flagging t (t.onLog Log.dropHead) := (Flagging.refl t).onLog _ rfl rfl rfl rfl
      have taken := (Composing.refl (t.onLog Log.dropHead)).takeRecord
      refine .inr ⟨h.trans_filed ⟨left.trans taken.toFlagging, fun policy fits => ?_⟩, r, rest, ?_, ?_⟩
      · obtain ⟨joined, queue, goes, source⟩ := taken.files policy (fits.congr rfl rfl)
        exact ⟨joined, queue, goes, source⟩
      · rw [← h.queue, queue]
      · rw [← h.next]
        omega
theorem Composing.copyOver : Composing s (t.onTx fun x => { x with copyFrom := none }) := h.onTx _ ⟨nofun, fun _ => id⟩
theorem Composing.copyDone (slot) : Composing s (t.copyDone slot) := by
  cases slot with
  | own => exact h.copyOver
  | product i => exact h.copyOver
  | status => exact h.copyOver.onTx _ ⟨fun _ => id, fun _ => id⟩
  | stream => exact h.copyOver.onTx _ ⟨fun _ => id, fun _ => id⟩
end

end Sys2Proof.Machine
end

section
/-! What one command can do to the flags, the queue of records and the record under composition (R165 to R169, R173, R174): one
inversion over all commands. -/

namespace Sys2Proof.Machine

/-! ### The effect of a command -/

/-- The end of the node's own frame with a current delivery of a slot's content (R140, R160). -/
structure Delivers (c : Instr) (s : State) (slot : SlotId) : Prop where
  command : ∃ k, c = .ownFrameEnd k ∧ deliveredBy k = true
  copy : s.tx.copyFrom = some slot
  current : s.tx.marks.get slot = false

/-- The STATUS delivered carried the flag, and no event has set it since (R173, R174). -/
def State.Shows (s : State) (f : Sticky) : Prop :=
  s.log.carried.getLsbD f.index = true ∧ s.log.renewal.getLsbD f.index = false

/-- What a command makes of the record unit (R165 to R169, R173, R174). -/
structure RecordEffect (c : Instr) (s u : State) : Prop where
  flags : ∀ f : Sticky, s.flag f = true → u.flag f = false → Delivers c s .status ∧ s.Shows f
  dropped : s.settings.policy = .holdRounds →
    u.log.dropped = s.log.dropped ∧ (s.flag .recordDropped = false → u.flag .recordDropped = false)
  files : s.settings.policy = .holdRounds → s.RecordFits → ∃ gone joined, s.log.Files u.log gone joined ∧
    (gone = true → Delivers c s .stream ∧ ∃ r rest, s.log.queue = r :: rest ∧ r.fragmentCount ≤ s.log.nextFragment + 1)

theorem Filed.effect {gone : Bool} {s u : State} (h : Filed gone s u) (c : Instr)
    (head : gone = true → Delivers c s .stream ∧ ∃ r rest, s.log.queue = r :: rest ∧ r.fragmentCount ≤ s.log.nextFragment + 1) :
    RecordEffect c s u := by
  refine ⟨fun f set clear => absurd ((h.flags f set).symm.trans clear) nofun, h.dropped, fun policy fits => ?_⟩
  obtain ⟨joined, files⟩ := h.files policy fits
  exact ⟨gone, joined, files, head⟩

/-- At a rejoin the record unit stays, whatever the selector lets go (R162). -/
theorem RecordEffect.of_log {c : Instr} {s v u : State} (h : Filed false v u) (settings : v.settings = s.settings)
    (state : v.seq.state = s.seq.state) (log : v.log = s.log) : RecordEffect c s u := by
  obtain ⟨-, dropped, files⟩ := h.effect c nofun
  have flag (f : Sticky) : v.flag f = s.flag f := by unfold State.flag; rw [log]
  rw [settings, log, flag] at dropped
  refine ⟨fun f set clear => absurd ((h.flags f ((flag f).trans set)).symm.trans clear) nofun, dropped, fun policy fits => ?_⟩
  obtain ⟨joined, filed⟩ := h.files (by rw [settings]; exact policy) (fits.congr state (by rw [log]))
  rw [log] at filed
  exact ⟨false, joined, filed, nofun⟩

/-! ### The end of an own frame -/

theorem deliveredBy_of_outcome {k : AckSlots} (h : copyOutcome k = .delivered) : deliveredBy k = true := by
  obtain ⟨accept, reject, hold⟩ := k
  cases reject with
  | true => cases h
  | false => cases hold with
    | true => cases h
    | false => cases accept with
      | true => rfl
      | false => cases h

/-- The current delivery of a STATUS clears the flags it carried that no event has set again, and leaves the records (R174). -/
theorem Composing.statusDelivered {c : Instr} {s v : State} (h : Composing s v) (delivers : Delivers c s .status)
    (copy : v.tx.copyFrom = some .status) (current : v.tx.marks.status = false) :
    RecordEffect c s ((v.copyDone .status).currentDelivery .status) := by
  obtain ⟨carried, renewal⟩ := h.shown copy current
  have flag (f : Sticky) : ((v.copyDone .status).currentDelivery .status).flag f =
      (v.flag f && (!v.log.carried.getLsbD f.index || v.log.renewal.getLsbD f.index)) := v.log.statusDelivered_isSet f
  refine ⟨fun f set clear => ⟨delivers, ?_⟩, fun policy => ?_, fun policy fits => ?_⟩
  · rw [flag, h.flags f set, Bool.true_and, Bool.or_eq_false_iff, Bool.not_eq_false', carried] at clear
    obtain ⟨shown, fresh⟩ := clear
    exact ⟨shown, Bool.eq_false_iff.2 fun again => absurd ((renewal _ again).symm.trans fresh) nofun⟩
  · obtain ⟨dropped, kept⟩ := h.dropped policy
    exact ⟨dropped, fun clear => by rw [flag, kept clear, Bool.false_and]⟩
  · obtain ⟨joined, queue, goes, source⟩ := h.filed.files policy fits
    exact ⟨false, joined, ⟨queue, goes, source⟩, nofun⟩

theorem Composing.ownFrameEnd {s v : State} (h : Composing s v) (k : AckSlots) :
    RecordEffect (.ownFrameEnd k) s (v.handOutcome (copyOutcome k)) := by
  cases copy : v.tx.copyFrom with
  | none =>
    unfold State.handOutcome
    rw [copy]
    exact h.filed.effect _ nofun
  | some slot =>
    cases outcome : copyOutcome k with
    | rejected => rw [State.handOutcome_failed copy (.inl rfl)]; exact h.copyOver.filed.effect _ nofun
    | unanswered => rw [State.handOutcome_failed copy (.inr rfl)]; exact h.copyOver.filed.effect _ nofun
    | held =>
      rw [State.handOutcome_held copy]
      exact (h.onTx (fun t => { t with copyFrom := none, holdBack := .from 0 }) ⟨nofun, fun _ => id⟩).filed.effect _ nofun
    | delivered =>
      rw [State.handOutcome_delivered copy]
      by_cases replaced : v.tx.marks.get slot = true
      · rw [if_pos replaced]
        exact (h.copyDone slot).filed.effect _ nofun
      rw [if_neg replaced]
      have current := Bool.eq_false_iff.2 replaced
      have delivers : Delivers (.ownFrameEnd k) s slot :=
        ⟨⟨k, rfl, deliveredBy_of_outcome outcome⟩, h.tx.copy _ copy, h.tx.mark _ current⟩
      have ended := h.copyDone slot
      cases slot with
      | own => exact ended.ownSlotDelivered.filed.effect _ nofun
      | product i => exact (ended.productSlotDelivered i).filed.effect _ nofun
      | status => exact h.statusDelivered delivers copy current
      | stream =>
        rcases ended.fragmentDelivered with filed | ⟨filed, head⟩
        · exact filed.effect _ nofun
        · exact filed.effect _ fun _ => ⟨delivers, head⟩

/-! ### Every command -/

theorem exec_records (c : Instr) (s : State) (fresh : ¬ startsAfresh c) : ∃ u, exec c s = done u ∧ RecordEffect c s u := by
  have files {u : State} (e : exec c s = done u) (h : Filed false s u) : ∃ u, exec c s = done u ∧ RecordEffect c s u :=
    ⟨u, e, h.effect c nofun⟩
  have goes {u : State} (e : exec c s = done u) (h : Composing s u) : ∃ u, exec c s = done u ∧ RecordEffect c s u :=
    files e h.filed
  have h := Composing.refl s
  cases c with
  | powerUp => exact absurd (.inl rfl) fresh
  | resetRisingEdge => exact absurd (.inr (.inl rfl)) fresh
  | startUpComplete => exact absurd (.inr (.inr rfl)) fresh
  | resetFallingEdge => refine goes rfl ?_; split <;> [exact (h.onPort _).onLoader _; exact h]
  | imageReadEnd bytes => refine goes rfl ?_; split <;> [exact h.onLoader _; exact h]
  | uptimeTick => refine goes rfl ?_; split <;> [exact h.onLoader _; exact h]
  | inputLevelChange x active => exact goes rfl (h.onPort _)
  | reqRisingEdge i => refine files rfl ?_; split <;> [exact (h.onPort _).roundRequest _ _; exact h.filed]
  | confirmRisingEdge => refine goes rfl ?_; split <;> [exact (h.onPort _).confirmEdge; exact h]
  | stopChange =>
    refine files rfl ?_
    split
    · dsimp only
      split <;> [exact (h.onPort _).stopActive; exact (h.onPort _).filed]
    · exact h.filed
  | prodLineChange i => refine goes rfl ?_; split <;> [exact (h.onPort _).judgeHolds; exact h]
  | samplePeriodExpiry => refine goes rfl ?_; split <;> [exact h.onPort _; exact h]
  | sampleReply bytes =>
    refine files rfl ?_
    split
    · split
      · split <;> [exact h.validReply _; exact h.filed]
      · exact h.noReply
    · exact h.filed
  | replyTimeout => refine files rfl ?_; split <;> [exact h.noReply; exact h.filed]
  | applyAnnouncementCip =>
    refine goes rfl ?_
    split
    · split <;> [exact h.carryAnnouncement _; exact h]
    · exact h
  | applyAnnouncementProduct =>
    refine goes rfl ?_
    split
    · split <;> [exact h.carryAnnouncement _; exact h]
    · exact h
  | applyRelease => refine goes rfl ?_; split <;> [exact h.carryRelease _ _ _; exact h]
  | inhibitOperation => refine goes rfl ?_; split <;> [exact h.carryInhibit _ _; exact h]
  | clearOperation => refine goes rfl ?_; split <;> [exact h.carryInhibit _ _; exact h]
  | ownInsert => refine goes rfl ?_; split <;> [exact h.carryInsert _ _ _ _; exact h]
  | ownUpdate => refine goes rfl ?_; split <;> [exact h.carryUpdate _ _ _ _; exact h]
  | ownRemove => refine goes rfl ?_; split <;> [exact h.carryRemove _ _; exact h]
  | evaluate => refine goes rfl ?_; split <;> [exact h.carryEvaluate; exact h]
  | entryExpiry n =>
    refine goes rfl ?_
    split
    · split <;> [exact ((h.onBoard _).stickyIf _ _ (by decide)).hallResult _; exact h]
    · exact h
  | incompleteTimerExpiry r => refine goes rfl ?_; split <;> [exact (h.onBoard _).notice _; exact h]
  | agingExpiry =>
    refine goes rfl ?_
    split
    · dsimp only
      split <;> [exact (h.onAdm _).ageStep; exact h.onAdm _]
    · exact h
  | learningExpiry => refine goes rfl ?_; split <;> [exact (h.onAdm _).admEngaged; exact h]
  | settleExpiry =>
    refine goes rfl ?_
    split
    · dsimp only
      split <;> [exact (h.onAdm _).requestEval _; exact (h.onAdm _).yieldStep]
    · exact h
  | lapseExpiry =>
    refine goes rfl ?_
    split
    · split
      · exact (h.sticky _ (by decide)).lapseRunPending.requestEval _
      · exact (h.sticky _ (by decide)).yieldStep.requestEval _
      · exact h
    · exact h
  | refreshExpiry =>
    refine goes rfl ?_
    split
    · dsimp only
      split
      · exact (h.onAdm _).placeAnnounce _ _
      · exact (h.onAdm _).placeAnnounce _ _
      · exact h
    · exact h
  | guardExpiry => refine goes rfl ?_; split <;> [exact h.stopRun _; exact h]
  | productRefreshExpiry i =>
    refine goes rfl ?_
    split
    · split <;> [exact (h.onAdm _).placeHold _ _; exact h]
    · exact h
  | stepTimerExpiry =>
    refine goes rfl ?_
    split
    · rename_i due
      exact h.suspend (by rw [due.2]; nofun) _
    · exact h
  | pauseTimerExpiry => refine goes rfl ?_; split <;> [exact Composing.onVer (h.onSeq _ rfl) _; exact h]
  | suspendTimerExpiry =>
    refine files rfl ?_
    split
    · rename_i out
      exact h.closeRound (by rw [out.2]; nofun) _
    · exact h.filed
  | announce f => exact files rfl (h.receiveFrame _ _)
  | release f => exact files rfl (h.receiveFrame _ _)
  | inhibit f => exact files rfl (h.receiveFrame _ _)
  | clear f => exact files rfl (h.receiveFrame _ _)
  | request f => exact files rfl (h.receiveFrame _ _)
  | abort f => exact files rfl (h.receiveFrame _ _)
  | resume f => exact files rfl (h.receiveFrame _ _)
  | report f => exact files rfl (h.receiveFrame _ _)
  | status f => exact files rfl (h.receiveFrame _ _)
  | record f => exact files rfl (h.receiveFrame _ _)
  | unknownKind k f => exact files rfl (h.receiveFrame _ _)
  | commandNotAddressed f => exact files rfl (h.receiveFrame _ _)
  | receivedFrameCheckFailed => refine goes rfl ?_; split <;> [exact h.checkFailed _; exact h]
  | frameBreakOff => refine goes rfl ?_; split <;> [exact h.checkFailed _; exact h]
  | arbitrationLost => refine goes rfl ?_; split <;> [exact (h.onLink _).copyOver; exact h]
  | frameAbandon => refine goes rfl ?_; split <;> [exact (h.onLink _).copyOver.moveCounts _ _; exact h]
  | ownFrameEnd k =>
    by_cases sending : s.sending = true
    · exact ⟨_, congrArg done (if_pos sending), ((h.frameOver none).tecMove _).ownFrameEnd k⟩
    · exact goes (congrArg done (if_neg sending)) h
  | mediumIdle => refine goes rfl ?_; split <;> [exact h.onLink _; exact h]
  | peerStartField => refine goes rfl ?_; split <;> [exact h.onLink _; exact h]
  | holdBackExpiry => refine goes rfl ?_; split <;> [exact h.onTx _ ⟨fun _ => id, fun _ => id⟩; exact h]
  | rejoin =>
    by_cases acts : s.link.quiet.due Config.rejoinQuiet = true ∧ s.link.state = .detached
    · exact ⟨_, congrArg done (if_pos acts),
        .of_log (v := s.rejoined) (Composing.refl _).takeRequest.judgeHolds.filed rfl rfl rfl⟩
    · exact goes (congrArg done (if_neg acts)) h
  | statusPeriodExpiry =>
    refine goes rfl ?_
    split
    · exact (h.still ((Flagging.refl s).onLog _ rfl rfl rfl rfl) rfl rfl rfl rfl).makeStatus
    · exact h

end Sys2Proof.Machine

open Sys2Proof Sys2Proof.Machine

/-- Settles O18: every operation but the current delivery of a STATUS leaves a flag that is set, and while its copy is not replaced
what it carried stands. -/
theorem stickyFlagsClearOnlyByStatus : Obligations.StickyFlagsClearOnlyByStatus := by
  intro c s t f e fresh set clear
  obtain ⟨u, hu, effect⟩ := exec_records c s fresh
  rw [hu] at e
  obtain rfl := done_next e
  have clear : u.flag f = false := by unfold State.flag at clear ⊢; rwa [State.finish_log] at clear
  obtain ⟨⟨command, copy, current⟩, carried, renewal⟩ := effect.flags f set clear
  exact ⟨command, copy, current, carried, renewal⟩

/-- Settles O19: under HOLD_ROUNDS the queue loses its head at the delivery of its last fragment alone, and one record at most joins it,
the one under composition. -/
theorem holdRoundsDiscardsNothing : Obligations.HoldRoundsDiscardsNothing := by
  intro c s t e fresh policy
  obtain ⟨u, hu, effect⟩ := exec_records c s fresh
  rw [hu] at e
  obtain rfl := done_next e
  obtain ⟨dropped, flag⟩ := effect.dropped policy
  unfold State.flag at flag ⊢
  rw [State.finish_log]
  refine ⟨dropped, flag, fun fits => ?_⟩
  obtain ⟨gone, joined, files, head⟩ := effect.files policy fits.recordFits
  refine ⟨gone, joined, files.queue, fun left => ?_, fun x comp => ?_, files.source⟩
  · obtain ⟨⟨command, copy, current⟩, last⟩ := head left
    exact ⟨command, copy, current, last⟩
  · rcases files.goes x comp with ⟨y, comp', on, same⟩ | joins
    · exact .inl ⟨y, comp', on, same⟩
    · exact .inr joins

end
